-- ==== Sys2Proof/Word.lean ====
section
/-! DEFINITION. The bit-vector widths of the block, named as the spec names them (R7, R8, R20). -/

namespace Sys2Proof

/-- A device register's contents or its address: 8 bits (R67). -/
abbrev Byte := BitVec 8

/-- A command word, a response word or a status register's value: 32 bits (R101, R108, R32). -/
abbrev Word := BitVec 32

/-- A bus address: 7 bits (R36, R107). -/
abbrev BusAddr := BitVec 7

/-- A tick count: 13 bits, so that the sentinel 4096 fits (R208, 90_conflicts.md C4). -/
abbrev Tick := BitVec 13

end Sys2Proof
end

