-- ==== Sys2Proof/Syntax.lean ====
section
/-! DEFINITION. The six host commands (R3, R14, R103), one constructor per row of the opcode table. Operands are
the numbers the rules compute with (R104 to R107); `WellFormed` says which of them a command word can carry. -/

namespace Sys2Proof

inductive Instr where
  /-- OPEN `addr7` (format A, R107, R141). -/
  | openCmd (addr7 : Nat)
  /-- CLOSE (format Z, R146). -/
  | closeCmd
  /-- RESET (format Z, R145). -/
  | resetCmd
  /-- SETFREQ `hz`, whole hertz (format F, R104, R171). -/
  | setFreq (hz : Nat)
  /-- SETCH `ch, duty` with the polarity flag `inv` (format C, R105, R106, R213). -/
  | setCh (ch : Nat) (inv : Bool) (duty : Int)
  /-- SETALL `duty` with the polarity flag `inv` (format P, R105, R214). -/
  | setAll (inv : Bool) (duty : Int)
  deriving DecidableEq, Repr

end Sys2Proof
end

