-- ==== Sys2Proof/WellFormed.lean ====
section
/-! DEFINITION. Which commands a 32-bit command word can carry: the operand ranges of R104 to R107 and R113. -/

namespace Sys2Proof

/-- `addr` in 0..127 (R107). -/
def addrFits (addr7 : Nat) : Bool := decide (addr7 < 128)

/-- `hz` in 0..65535 (R104). -/
def hzFits (hz : Nat) : Bool := decide (hz < 65536)

/-- `ch` in 0..255 (R106). -/
def chFits (ch : Nat) : Bool := decide (ch < 256)

/-- `duty` in -32768..32767 (R105). -/
def dutyFits (duty : Int) : Bool := decide (-32768 ≤ duty) && decide (duty ≤ 32767)

/-- The command has an encoding. -/
def Instr.wellFormed : Instr → Bool
  | .openCmd addr7 => addrFits addr7
  | .closeCmd => true
  | .resetCmd => true
  | .setFreq hz => hzFits hz
  | .setCh ch _ duty => chFits ch && dutyFits duty
  | .setAll _ duty => dutyFits duty

/-- `Instr.wellFormed` as a proposition. -/
abbrev WellFormed (i : Instr) : Prop := i.wellFormed = true

end Sys2Proof
end

