-- ==== Sys2Proof/Decode.lean ====
section
/-! DEFINITION. The decoder (R103, R109, R112) and, after it, the encoder (R113). A command is one 32-bit word
(R101, R111); it arrives on the command port as a word, so no byte order is involved (R81). -/

namespace Sys2Proof

/-! ### The fields of a command word (R101) -/

def opField (w : Word) : BitVec 4 := w.extractLsb' 28 4
def chField (w : Word) : BitVec 8 := w.extractLsb' 20 8
def zeroField (w : Word) : BitVec 3 := w.extractLsb' 17 3
def invField (w : Word) : BitVec 1 := w.extractLsb' 16 1
def immField (w : Word) : BitVec 16 := w.extractLsb' 0 16

/-- `sint16(w)` of R9: a 16-bit field read as two's complement. -/
def sint16 (w : BitVec 16) : Int :=
  if w.toNat < 32768 then (w.toNat : Int) else (w.toNat : Int) - 65536

/-- Why a word is illegal (R109): the first of R109's conditions that it breaks. -/
inductive Illegal where
  /-- `OP` is 0 or 7 to 15. -/
  | badOpcode
  /-- `ZERO != 0`. -/
  | zeroNotZero
  /-- `CH != 0` outside SETCH. -/
  | channelUnused
  /-- `INV != 0` outside SETCH and SETALL. -/
  | polarityUnused
  /-- `IMM16 != 0` for CLOSE or RESET, or `IMM16[15:7] != 0` for OPEN. -/
  | operandUnused
  deriving DecidableEq, Repr

/-- Names the condition of R109 a word outside the opcode map breaks. -/
def illegalReason (w : Word) : Illegal :=
  if opField w = 0 ∨ 7 ≤ (opField w).toNat then .badOpcode
  else if zeroField w ≠ 0 then .zeroNotZero
  else if opField w ≠ 5 ∧ chField w ≠ 0 then .channelUnused
  else if opField w ≠ 5 ∧ opField w ≠ 6 ∧ invField w ≠ 0 then .polarityUnused
  else .operandUnused

/-- R112 steps (1) and (2): the row of R103 with `w & mask = match`, and its operands; a word that matches no
row is illegal (R109). Total on all words. -/
def decode (w : Word) : Except Illegal Instr :=
  if w &&& 0xFFFFFF80 = 0x10000000 then
    .ok (.openCmd (w.extractLsb' 0 7).toNat)
  else if w &&& 0xFFFFFFFF = 0x20000000 then
    .ok .closeCmd
  else if w &&& 0xFFFFFFFF = 0x30000000 then
    .ok .resetCmd
  else if w &&& 0xFFFF0000 = 0x40000000 then
    .ok (.setFreq (immField w).toNat)
  else if w &&& 0xF00E0000 = 0x50000000 then
    .ok (.setCh (chField w).toNat (invField w == 1) (sint16 (immField w)))
  else if w &&& 0xFFFE0000 = 0x60000000 then
    .ok (.setAll (invField w == 1) (sint16 (immField w)))
  else
    .error (illegalReason w)

/-- `OP` of a command (R103); the response word repeats it (R108). -/
def opcodeOf : Instr → BitVec 4
  | .openCmd _ => 1
  | .closeCmd => 2
  | .resetCmd => 3
  | .setFreq _ => 4
  | .setCh _ _ _ => 5
  | .setAll _ _ => 6

/-- `match` and `mask` of a command's row in R103. -/
def tableRow : Instr → Word × Word
  | .openCmd _ => (0x10000000, 0xFFFFFF80)
  | .closeCmd => (0x20000000, 0xFFFFFFFF)
  | .resetCmd => (0x30000000, 0xFFFFFFFF)
  | .setFreq _ => (0x40000000, 0xFFFF0000)
  | .setCh _ _ _ => (0x50000000, 0xF00E0000)
  | .setAll _ _ => (0x60000000, 0xFFFE0000)

/-- A command's word, put together from its fields in the order of R101. -/
def packWord (op : BitVec 4) (ch : BitVec 8) (inv : Bool) (imm : BitVec 16) : Word :=
  op ++ ch ++ (0 : BitVec 3) ++ BitVec.ofBool inv ++ imm

/-- The encoding of R113: unused fields 0, `duty mod 65536`. -/
def encode : Instr → Word
  | .openCmd addr7 => packWord 1 0 false (BitVec.ofNat 16 addr7)
  | .closeCmd => packWord 2 0 false 0
  | .resetCmd => packWord 3 0 false 0
  | .setFreq hz => packWord 4 0 false (BitVec.ofNat 16 hz)
  | .setCh ch inv duty => packWord 5 (BitVec.ofNat 8 ch) inv (BitVec.ofInt 16 duty)
  | .setAll inv duty => packWord 6 0 inv (BitVec.ofInt 16 duty)

/-- The word that `nbits` bits numbered as the opcode table numbers them stand for; bits above `nbits` are 0. -/
def tableWord (nbits w : Nat) : Word := BitVec.ofNat 32 (w % 2 ^ nbits)

/-- What the decoder reads from a word numbered as the opcode table numbers it. -/
def decodeTableWord (nbits w : Nat) : Option Instr :=
  match decode (tableWord nbits w) with
  | .ok i => some i
  | .error _ => none

end Sys2Proof
end

