-- ==== Sys2Proof/Config.lean ====
section
/-! DEFINITION. The constants the source fixes (R6, R67, R72), the parameters it leaves open (R7, D20, D21) and
the free values (U1, U13). -/

namespace Sys2Proof.Config

/-! ### Constants (R6) -/

/-- `PIN_COUNT`. -/
abbrev pinCount : Nat := 16

/-- `MIN_FREQ`, Hz, inclusive. -/
abbrev minFreq : Nat := 40

/-- `MAX_FREQ`, Hz, inclusive. -/
abbrev maxFreq : Nat := 1000

/-- `OSC_HZ`: only a name for the literal of the formula (N26). -/
abbrev oscHz : Nat := 25000000

/-- `TICKS`. -/
abbrev ticks : Nat := 4096

/-- `DUTY_MAX`: the clamp target. -/
abbrev dutyMax : Int := 4095

/-- `DUTY_SENTINEL`: the value that passes unclamped (C1). -/
abbrev dutySentinel : Int := 4096

/-- `DEFAULT_ADDR`: what the assembler supplies for a bare `OPEN` (R114). -/
abbrev defaultAddr : Nat := 0x40

/-! ### Device register addresses (R67, R68) -/

abbrev regMode1 : Byte := 0x00
abbrev regMode2 : Byte := 0x01
abbrev regSubadr1 : Byte := 0x02
abbrev regSubadr2 : Byte := 0x03
abbrev regSubadr3 : Byte := 0x04
/-- `LED0_BASE` of R6. -/
abbrev regLed0 : Byte := 0x06
/-- `ALL_BASE` of R6: ALL_LED_ON_L; the other three follow it. -/
abbrev regAllLed : Byte := 0xFA
abbrev regPrescale : Byte := 0xFE

/-! ### Bit flags (R72) -/

abbrev flagRestart : Byte := 0x80
/-- Auto-increment: not in D00's flag list, it follows from the literal 0xA1 (R72, C6). -/
abbrev flagAutoIncrement : Byte := 0x20
abbrev flagSleep : Byte := 0x10
abbrev flagAllCall : Byte := 0x01
/-- Never used by the block (R72). -/
abbrev flagInvrt : Byte := 0x10
/-- Never used by the block (R72). -/
abbrev flagOutdrv : Byte := 0x04
/-- `MODE1_FINAL_OR` of R6. -/
abbrev mode1FinalOr : Byte := 0xA1

/-! ### Open parameters (R7, D20, D21; log entry 7) -/

/-- One less than `CLK_HZ`; no body, so nothing can be proved of its value. -/
opaque clkHzPred : Nat

/-- `CLK_HZ`: positive, otherwise open. -/
def clkHz : Nat := clkHzPred + 1

/-- By how much `SETTLE_CYCLES` exceeds its lower bound; no body. -/
opaque settleSlack : Nat

/-- `SETTLE_CYCLES`: any integer at least `ceil(CLK_HZ * 0.005)` (R291). -/
def settleCycles : Nat := (5 * clkHz + 999) / 1000 + settleSlack

/-- `I2C_SPEED`: no rule depends on it (R7, D21). -/
opaque i2cSpeed : Nat

/-! ### Free values (U1, U13; log entry 6) -/

/-- The `n`-th free value, seen as `w` bits; no body. -/
opaque freeBits (w : Nat) (n : Nat) : BitVec w

/-- The `n`-th free value for TMR, whose width is a parameter; no body. -/
opaque freeCount (n : Nat) : Nat

end Sys2Proof.Config
end

