-- ==== Sys2Proof/Machine/State.lean ====
section
/-! DEFINITION. The block's state (R20), the ports on which something can be pending (R100, R110), and what the
model holds of the environment (log entries 2 to 7). Plain data throughout. -/

namespace Sys2Proof.Machine

/-- The lifecycle state ST (R22). -/
inductive Lifecycle where
  | unopened
  | opening
  | ready
  | reconfiguring
  | closed
  deriving DecidableEq, Repr

/-- The running micro-sequence SEQ (R27). -/
inductive SeqId where
  | idle
  | openSeq
  | closeSeq
  | resetSeq
  | freqSeq
  | chanSeq
  | allSeq
  deriving DecidableEq, Repr

/-- The error kinds of R271, success among them. -/
inductive ErrKind where
  | ok
  | deviceUnavailable
  | deviceBusy
  | outOfRange
  | ioFailure
  | closed
  | badState
  | illegalCommand
  deriving DecidableEq, Repr

/-- A channel transaction without its bus address (R60 to R64). -/
inductive BusOp where
  | acq
  | rel
  | wr8 (reg val : Byte)
  | rd8 (reg : Byte)
  deriving DecidableEq, Repr

/-- A request on the channel port (R110): every kind carries `bus_addr7`. -/
structure BusReq where
  addr7 : BusAddr
  op : BusOp
  deriving DecidableEq, Repr

/-- `bus_status` (R110). -/
inductive BusStatus where
  | ok
  | fail
  | notFound
  | inUse
  deriving DecidableEq, Repr

/-- The provider's answer (R110). `rdata` is ignored but for a successful RD8. -/
structure BusRsp where
  status : BusStatus
  rdata : Byte
  deriving DecidableEq, Repr

/-- What the host does next (R294; log entry 3). -/
inductive HostAct where
  /-- Present a command word; it waits until `cmd_ready` (R241). -/
  | cmd (w : Word)
  /-- Read the status register `sr_sel` (R32). -/
  | readSR (n : BitVec 3)
  /-- Assert `rst` (R310). -/
  | rst
  /-- Let one step pass. -/
  | pass
  deriving DecidableEq, Repr

/-- The events of R100. A channel transaction is one event, made when its answer arrives. -/
inductive Event where
  /-- `HwReset`. -/
  | hwReset
  /-- `Cmd(w)`: the word was accepted. -/
  | cmd (w : Word)
  /-- `Rsp(r)`. -/
  | rsp (r : Word)
  /-- `ReadSR(n)` with the value read. -/
  | readSR (n : BitVec 3) (v : Word)
  /-- `BusReq` with its `BusRsp`. -/
  | txn (q : BusReq) (a : BusRsp)
  /-- The settle delay ended (R290). -/
  | delay
  deriving DecidableEq, Repr

/-- One entry of a micro-sequence table (R243, R244). -/
inductive Micro where
  | bus (op : BusOp)
  | delay
  deriving DecidableEq, Repr

/-- An entry of the lifecycle check's table (R248). -/
inductive Verdict where
  | run
  | reject (e : ErrKind)
  /-- "cannot occur": ST is transient only while SEQ is not 0 (R23). -/
  | never
  deriving DecidableEq, Repr

/-- Why the machine is stuck. Both only in states no run from reset reaches. -/
inductive Fault where
  /-- Raised by the lifecycle check when a command is accepted in OPENING or RECONFIGURING, which R248 says
  cannot occur. Safe: no behaviour is invented for it. -/
  | transientWhileIdle
  /-- Raised by the sequencer when (SEQ, STEP) names no entry of R244's tables, or an answer belongs to no
  entry. Safe: no behaviour is invented for it. -/
  | noSuchStep
  deriving DecidableEq, Repr

/-- What the model declines to run. -/
inductive Refusal where
  /-- Raised by exec for a command without a meaning yet. Safe. -/
  | notModelled (mnemonic : String)
  /-- Raised by the sequencer when the provider answers with a status the request's kind does not allow: "a
  model refuses such a run" (R110, U9). Safe. -/
  | providerContract
  /-- Raised when the host asserts `rst` while SEQ is not 0 or a handle is held: "a model refuses such a run"
  (R312, U10). Safe. -/
  | resetOutsideIdle
  deriving DecidableEq, Repr

/-- The state. The first fourteen fields are R20's list, in its order. -/
structure State where
  /-- ST (R22). -/
  st : Lifecycle
  /-- SEQ (R27). -/
  seq : SeqId
  /-- STEP (R27). -/
  step : BitVec 3
  /-- HELD (R30). -/
  held : Bool
  /-- ADDR (R26). -/
  addr : BusAddr
  /-- ACTUAL, in 0.1 Hz (R33). -/
  actual : BitVec 14
  /-- LASTERR (R31). -/
  lastErr : ErrKind
  /-- OLD (R172). -/
  old : Byte
  /-- PRE (R171). -/
  pre : Byte
  /-- HZL (R171). -/
  hzl : BitVec 16
  /-- ON (R213). -/
  on : Tick
  /-- OFF (R213). -/
  off : Tick
  /-- BASE (R211). -/
  base : Byte
  /-- TMR (R291); its width is a parameter. -/
  tmr : Nat
  /-- The channel port's outstanding request (R110); at most one (R60). -/
  req : Option BusReq
  /-- The response port's pending word (R100). -/
  rsp : Option Word
  /-- The model's own: what the host does next (log entry 3). -/
  host : List HostAct
  /-- The model's own: the provider's answers to come (log entry 4). -/
  bus : List BusRsp
  /-- The model's own: for each step of a settle delay to come, how many clocks pass in it (log entry 7). -/
  clk : List Nat
  /-- The model's own: the events so far, newest first (log entry 2). -/
  events : List Event
  /-- The model's own: what the transactions have put into device registers, by `deviceKey` (log entry 5). -/
  dev : List Host.Cell
  /-- The model's own: how many free values have been used (log entry 6). -/
  draws : Nat
  deriving DecidableEq, Repr

/-- The state after hardware reset with nothing presented to the block (R39, R310). The latches R39 leaves
unspecified are 0: DESIGN CHOICE, log entry 1. -/
def State.reset : State where
  st := .unopened
  seq := .idle
  step := 0
  held := false
  addr := 0
  actual := 0
  lastErr := .ok
  old := 0
  pre := 0
  hzl := 0
  on := 0
  off := 0
  base := 0
  tmr := 0
  req := none
  rsp := none
  host := []
  bus := []
  clk := []
  events := []
  dev := []
  draws := 0

end Sys2Proof.Machine
end

