-- ==== Sys2Proof/Machine/Operands.lean ====
section
/-! DEFINITION. What the block computes from operands: the prescaler quantizer (41_frequency.md section 1), the
tick-pair encoder (42_dutycycle.md section 1), the byte split (R73, R209) and the register addresses (R68, R211). -/

namespace Sys2Proof.Machine

/-! ### The prescaler quantizer -/

/-- `clamp(lo, hi, v)` of R9. -/
def clamp (lo hi v : Int) : Int :=
  if v < lo then lo else if hi < v then hi else v

/-- `INRANGE(hz)` (R177). -/
def inRange (hz : Nat) : Bool := decide (Config.minFreq ≤ hz) && decide (hz ≤ Config.maxFreq)

/-- `ADJ(hz)` in 0.1 Hz (R178). -/
def adj (hz : Nat) : Nat := 9 * hz

/-- `p` of R175 for `hz >= 1`: floor division, the numerator may be negative. -/
def prescaleRaw (hz : Nat) : Int := (1953125 - 144 * (hz : Int)) / (288 * (hz : Int))

/-- The byte SETFREQ latches into PRE: `clamp(0, 255, p)` (R175). Used only where `hz >= 1`. -/
def prescaleByte (hz : Nat) : Byte := BitVec.ofNat 8 (clamp 0 255 (prescaleRaw hz)).toNat

/-- `PRESCALE(hz)` as a function on its own (R170): it has no result at 0 Hz (R174, U15). -/
def prescale (hz : Nat) : Option Byte := if hz = 0 then none else some (prescaleByte hz)

/-- `x + 1/2` of R173 on a rational number of hertz (R174): `x = 25000000 / 4096 / adjusted - 1` with
`adjusted = (9/10) * hz`. -/
def roundingArg (hz : Rat) : Rat := (Config.oscHz : Rat) / (Config.ticks : Rat) / (9 / 10 * hz) - 1 + 1 / 2

/-- R173 read exactly (R174): `clamp(0, 255, floor(x + 1/2))`. -/
def prescaleExact (hz : Rat) : Int := clamp 0 255 (roundingArg hz).floor

/-! ### The tick-pair encoder -/

/-- `NORM(d)` (R202): a negative duty acts as 0 (R216), above the sentinel 4095, the sentinel passes (C1). -/
def normDuty (d : Int) : Nat :=
  if d < 0 then 0 else if Config.dutySentinel < d then Config.dutyMax.toNat else d.toNat

/-- `trunc(q)` (R9). -/
def truncRat (r : Rat) : Int := if 0 ≤ r then r.floor else -(-r).floor

/-- The normalization of a real, here rational, duty cycle `r >= 0` (R201). -/
def normExact (r : Rat) : Int := if (Config.dutySentinel : Rat) < r then Config.dutyMax else truncRat r

/-- `ENC(inv, v)`, the pair `(on, off)` (R203). -/
def enc (inv : Bool) (v : Nat) : Nat × Nat :=
  match inv with
  | false =>
    if v = 4095 then (4095, 0)
    else if v = 4096 then (4096, 0)
    else if v = 0 then (0, 4095)
    else (0, v)
  | true =>
    if v = 0 then (4095, 0)
    else if v = 4095 then (0, 4095)
    else if v = 4096 then (0, 4096)
    else (0, 4095 - v)

/-- The on tick of `ENC(inv, NORM(d))` (R200). -/
def onTick (inv : Bool) (d : Int) : Tick := BitVec.ofNat 13 (enc inv (normDuty d)).1

/-- The off tick of `ENC(inv, NORM(d))` (R200). -/
def offTick (inv : Bool) (d : Int) : Tick := BitVec.ofNat 13 (enc inv (normDuty d)).2

/-- `value & 0xFF` (R73, R209). -/
def lowByte (t : Tick) : Byte := t.extractLsb' 0 8

/-- `value >> 8`, zero-extended (R73, R209). -/
def highByte (t : Tick) : Byte := (t.extractLsb' 8 5).setWidth 8

/-! ### Register addresses -/

/-- `CH <= 15` (R210). -/
def channelValid (ch : Nat) : Bool := decide (ch < Config.pinCount)

/-- `BASE` of SETCH: `0x06 + 4 * CH` (R68, R211). -/
def channelBase (ch : Nat) : Byte := Config.regLed0 + BitVec.ofNat 8 (4 * ch)

/-- The device register `reg` of the device at bus address `a`, as one number (R36, R61; log entry 5). -/
def deviceKey (a : BusAddr) (reg : Byte) : Nat := a.toNat * 256 + reg.toNat

end Sys2Proof.Machine
end

