-- ==== Sys2Proof/Machine/Flags.lean ====
section
/-! DEFINITION. The codes of the spec's names, the flags (R28 to R31), the status registers (R32), the ports'
signals (R100, R110), the response word (R108) and the MODE1 bytes of SETFREQ (R172). -/

namespace Sys2Proof.Machine

/-! ### Codes -/

/-- The 3-bit code of ST (R22). -/
def Lifecycle.code : Lifecycle → BitVec 3
  | .unopened => 0
  | .opening => 1
  | .ready => 2
  | .reconfiguring => 3
  | .closed => 4

/-- The 3-bit code of SEQ (R27). -/
def SeqId.code : SeqId → BitVec 3
  | .idle => 0
  | .openSeq => 1
  | .closeSeq => 2
  | .resetSeq => 3
  | .freqSeq => 4
  | .chanSeq => 5
  | .allSeq => 6

/-- `OP` of the running command: SEQ equals it (R27). -/
def SeqId.op (q : SeqId) : BitVec 4 := q.code.setWidth 4

/-- The `ERR` code (R271). -/
def ErrKind.code : ErrKind → BitVec 4
  | .ok => 0
  | .deviceUnavailable => 1
  | .deviceBusy => 2
  | .outOfRange => 3
  | .ioFailure => 4
  | .closed => 5
  | .badState => 6
  | .illegalCommand => 7

/-- `bus_kind` (R110). -/
def BusReq.kind (q : BusReq) : BitVec 2 :=
  match q.op with
  | .acq => 0
  | .rel => 1
  | .wr8 _ _ => 2
  | .rd8 _ => 3

/-- `bus_reg`: 0 but for WR8 and RD8 (R110). -/
def BusReq.reg (q : BusReq) : Byte :=
  match q.op with
  | .acq => 0
  | .rel => 0
  | .wr8 reg _ => reg
  | .rd8 reg => reg

/-- `bus_wdata`: 0 but for WR8 (R110). -/
def BusReq.wdata (q : BusReq) : Byte :=
  match q.op with
  | .acq => 0
  | .rel => 0
  | .wr8 _ val => val
  | .rd8 _ => 0

/-- `bus_status` (R110). -/
def BusStatus.code : BusStatus → BitVec 2
  | .ok => 0
  | .fail => 1
  | .notFound => 2
  | .inUse => 3

/-- The statuses a request's kind allows (R110). -/
def statusAllowed (op : BusOp) (a : BusStatus) : Bool :=
  match op with
  | .acq => a == .ok || a == .notFound || a == .inUse
  | .rel => a == .ok
  | .wr8 _ _ => a == .ok || a == .fail
  | .rd8 _ => a == .ok || a == .fail

/-! ### Flags, ports and status registers -/

/-- `BUSY`, the flag `SEQ != 0` (R28). -/
def State.busy (s : State) : Bool := s.seq != .idle

/-- `cmd_ready`: SEQ is 0 and no response is pending (R100, R241). -/
def State.cmdReady (s : State) : Bool := s.seq == .idle && s.rsp.isNone

/-- SR0: ST [2:0], BUSY [3], HELD [4], LASTERR [8:5], the rest 0 (R32). -/
def State.sr0 (s : State) : Word :=
  (0 : BitVec 23) ++ s.lastErr.code ++ BitVec.ofBool s.held ++ BitVec.ofBool s.busy ++ s.st.code

/-- `sr_data` for `sr_sel` (R32); 5 to 7 read 0 (R100). -/
def State.statusRegister (s : State) (n : BitVec 3) : Word :=
  match n.toNat with
  | 0 => s.sr0
  | 1 => s.actual.setWidth 32
  | 2 => BitVec.ofNat 32 Config.minFreq
  | 3 => BitVec.ofNat 32 Config.maxFreq
  | 4 => BitVec.ofNat 32 Config.pinCount
  | _ => 0

/-- The response word (R108). -/
def responseWord (op : BitVec 4) (e : ErrKind) (result : BitVec 16) : Word :=
  (0 : BitVec 8) ++ result ++ op ++ e.code

/-! ### MODE1 bytes of SETFREQ (R172) -/

/-- Step 1's value, the sleep variant `(OLD & 0x7F) | 0x10`. -/
def sleepVariant (old : Byte) : Byte := (old &&& 0x7F) ||| Config.flagSleep

/-- Step 5's value `OLD | 0xA1`. -/
def finalMode (old : Byte) : Byte := old ||| Config.mode1FinalOr

end Sys2Proof.Machine
end

