-- ==== Sys2Proof/Machine/Ops.lean ====
section
/-! DEFINITION. The shared operations: the device register space, free values, completing a command (R108,
R276), starting a sequence (R242), the lifecycle check (R248) and hardware reset (R310). Entering an error is
`State.respond` with the lifecycle state R247 gives; there is no return operation, the block is then idle (R279). -/

namespace Sys2Proof.Machine

/-- What a step answers. -/
abbrev Result := Host.Outcome State Fault Refusal

/-! ### The device register space (R61, R65, R67; log entry 5)

A list of (key, byte) in strictly rising order of keys; an unlisted key reads as nothing, because the spec gives
the chip's registers no power-on contents (N10). -/

/-- The byte last put at a key, if any. -/
def Memory.read : List Host.Cell → Nat → Option Byte
  | [], _ => none
  | (k, b) :: rest, a => if a = k then some b else Memory.read rest a

/-- Put a byte at a key, keeping the order. -/
def Memory.write : List Host.Cell → Nat → Byte → List Host.Cell
  | [], a, v => [(a, v)]
  | (k, b) :: rest, a, v =>
    if a < k then (a, v) :: (k, b) :: rest
    else if a = k then (a, v) :: rest
    else (k, b) :: Memory.write rest a v

/-- Every key of the list is above `a`. -/
def Memory.above (a : Nat) (m : List Host.Cell) : Bool := m.all fun c => decide (a < c.1)

/-- The canonical form: keys strictly rising. -/
def Memory.wf : List Host.Cell → Bool
  | [] => true
  | (k, _) :: rest => Memory.above k rest && Memory.wf rest

/-- The device register `reg` of the device at bus address `a`, as the transactions left it. -/
def State.devRead (s : State) (a : BusAddr) (reg : Byte) : Option Byte := Memory.read s.dev (deviceKey a reg)

/-- "the device register `a` has been written with `v`" (R61). -/
def State.devWrite (s : State) (a : BusAddr) (reg val : Byte) : State :=
  { s with dev := Memory.write s.dev (deviceKey a reg) val }

/-- One register takes any value (R65, U1): a fresh free value. -/
def State.devForget (s : State) (a : BusAddr) (reg : Byte) : State :=
  { s with
    dev := Memory.write s.dev (deviceKey a reg) (Config.freeBits 8 s.draws)
    draws := s.draws + 1 }

/-- Every register of a group takes any value. -/
def State.devForgetAll (s : State) (a : BusAddr) : List Byte → State
  | [] => s
  | reg :: regs => (s.devForget a reg).devForgetAll a regs

/-! ### Named updates -/

/-- Record an event (R100). -/
def State.log (s : State) (e : Event) : State := { s with events := e :: s.events }

/-- `ST <- x`. -/
def State.setSt (s : State) (x : Lifecycle) : State := { s with st := x }

/-- `pc <- (q, k)` (R243). -/
def State.goto (s : State) (q : SeqId) (k : BitVec 3) : State := { s with seq := q, step := k }

/-- `ON, OFF, BASE <-` (R213, R214). -/
def State.latchPair (s : State) (on off : Tick) (base : Byte) : State :=
  { s with on := on, off := off, base := base }

/-- `HZL, PRE <-` (R171). -/
def State.latchFreq (s : State) (hzl : BitVec 16) (pre : Byte) : State := { s with hzl := hzl, pre := pre }

/-- A request goes out on the channel port, addressed to `ADDR` (R61, R110). -/
def State.request (s : State) (op : BusOp) : State := { s with req := some { addr7 := s.addr, op := op } }

/-- `respond(e, r)` of R108 for the command with operation code `op`; with `e` not OK it is R276's error entry,
which saves nothing and changes no mode. -/
def State.respond (s : State) (op : BitVec 4) (e : ErrKind) (r : BitVec 16) : State :=
  { s with lastErr := e, seq := .idle, step := 0, rsp := some (responseWord op e r) }

/-- The pending response is handed to the host: the event `Rsp(r)` (R100). -/
def State.deliver (s : State) (r : Word) : State := { s with rsp := none, events := .rsp r :: s.events }

/-! ### The lifecycle check (R248) -/

/-- R248's table; `isOpen` tells the OPEN column from the other five. -/
def lifecycleVerdict (isOpen : Bool) (st : Lifecycle) : Verdict :=
  match st with
  | .unopened => if isOpen then .run else .reject .badState
  | .ready => if isOpen then .reject .badState else .run
  | .closed => .reject .closed
  | .opening => .never
  | .reconfiguring => .never

/-- Run a command's own rule if the lifecycle state allows it; otherwise the rejection, which "issues no
transaction and changes no state but `LASTERR`" (R248). -/
def checked (isOpen : Bool) (op : BitVec 4) (s : State) (accepted : State) : Result :=
  match lifecycleVerdict isOpen s.st with
  | .run => .next accepted
  | .reject e => .next (s.respond op e 0)
  | .never => .fault .transientWhileIdle

/-! ### Hardware reset (R310 to R312) -/

/-- R310: the six values it sets; the latches it leaves unspecified take free values (U13, log entry 6). The
chip is not touched (R311). -/
def State.hardwareReset (s : State) : State :=
  { s with
    st := .unopened
    seq := .idle
    step := 0
    held := false
    actual := 0
    lastErr := .ok
    addr := Config.freeBits 7 s.draws
    old := Config.freeBits 8 (s.draws + 1)
    pre := Config.freeBits 8 (s.draws + 2)
    hzl := Config.freeBits 16 (s.draws + 3)
    on := Config.freeBits 13 (s.draws + 4)
    off := Config.freeBits 13 (s.draws + 5)
    base := Config.freeBits 8 (s.draws + 6)
    tmr := Config.freeCount (s.draws + 7)
    draws := s.draws + 8
    events := .hwReset :: s.events }

/-- `rst` asserted: R310 when the block is idle and holds no handle, otherwise outside the spec (R312). -/
def assertReset (s : State) : Result :=
  if s.seq = .idle ∧ s.held = false then .next s.hardwareReset else .refused .resetOutsideIdle

end Sys2Proof.Machine
end

