-- ==== Sys2Proof/Machine/Duty.lean ====
section
/-! DEFINITION. Accepting SETCH and SETALL (42_dutycycle.md sections 2 to 4). -/

namespace Sys2Proof.Machine

/-- SETCH (R210, R213): a channel above 15 is OutOfRange; otherwise the pair of R200, the base of R211 and
`pc <- (CHAN, 0)`. -/
def execSetCh (ch : Nat) (inv : Bool) (duty : Int) (s : State) : Result :=
  checked false 5 s
    (if channelValid ch then
      (s.latchPair (onTick inv duty) (offTick inv duty) (channelBase ch)).goto .chanSeq 0
    else
      s.respond 5 .outOfRange 0)

/-- SETALL (R214): the pair of R200, base 0xFA and `pc <- (ALL, 0)`. -/
def execSetAll (inv : Bool) (duty : Int) (s : State) : Result :=
  checked false 6 s
    ((s.latchPair (onTick inv duty) (offTick inv duty) Config.regAllLed).goto .allSeq 0)

end Sys2Proof.Machine
end

