-- ==== Sys2Proof/Machine/Frequency.lean ====
section
/-! DEFINITION. Accepting SETFREQ (41_frequency.md section 2). -/

namespace Sys2Proof.Machine

/-- SETFREQ (R171): out of range, OutOfRange and nothing else; otherwise
`HZL <- HZ ; PRE <- PRESCALE(HZ) ; ST <- RECONFIGURING ; pc <- (FREQ, 0)`. -/
def execSetFreq (hz : Nat) (s : State) : Result :=
  checked false 4 s
    (if inRange hz then
      ((s.latchFreq (BitVec.ofNat 16 hz) (prescaleByte hz)).setSt .reconfiguring).goto .freqSeq 0
    else
      s.respond 4 .outOfRange 0)

end Sys2Proof.Machine
end

