-- ==== Sys2Proof/Machine/Lifecycle.lean ====
section
/-! DEFINITION. Accepting OPEN, CLOSE and RESET (40_lifecycle.md): the `accept:` line after the lifecycle check
(R242). Their micro-sequences are in Sequencer.lean. -/

namespace Sys2Proof.Machine

/-- OPEN (R141): `ADDR <- ADDR7 ; ST <- OPENING ; pc <- (OPEN, 0)`. -/
def execOpenCmd (addr7 : Nat) (s : State) : Result :=
  checked true 1 s (({ s with addr := BitVec.ofNat 7 addr7 }.setSt .opening).goto .openSeq 0)

/-- CLOSE (R146): `pc <- (CLOSE, 0)`; ST stays READY until the release (R149). -/
def execCloseCmd (s : State) : Result :=
  checked false 2 s (s.goto .closeSeq 0)

/-- RESET (R145): `pc <- (RESET, 0)`. -/
def execResetCmd (s : State) : Result :=
  checked false 3 s (s.goto .resetSeq 0)

end Sys2Proof.Machine
end

