-- ==== Sys2Proof/Machine/Dispatch.lean ====
section
/-! DEFINITION. One arm per command: what accepting it does (R242, R112 steps (3) and (4)). -/

namespace Sys2Proof.Machine

def exec (i : Instr) (s : State) : Host.Outcome State Fault Refusal :=
  match i with
  | .openCmd addr7 => Sys2Proof.Machine.execOpenCmd addr7 s
  | .closeCmd => Sys2Proof.Machine.execCloseCmd s
  | .resetCmd => Sys2Proof.Machine.execResetCmd s
  | .setFreq hz => Sys2Proof.Machine.execSetFreq hz s
  | .setCh ch inv duty => Sys2Proof.Machine.execSetCh ch inv duty s
  | .setAll inv duty => Sys2Proof.Machine.execSetAll inv duty s

end Sys2Proof.Machine
end

