-- ==== Sys2Proof/Machine/Sequencer.lean ====
section
/-! DEFINITION. The register sequencer: the micro-sequence tables (R244), issuing a request, and what each
answer does (R243, R245, and the command rules' `done:` and `on FAIL` lines). -/

namespace Sys2Proof.Machine

/-! ### The tables (R244) -/

/-- The `k`-th write of the reset sequence (R140). -/
def resetWrite (k : Nat) : Option Micro :=
  match k with
  | 0 => some (.bus (.wr8 Config.regMode1 0x00))
  | 1 => some (.bus (.wr8 Config.regAllLed 0x00))
  | 2 => some (.bus (.wr8 (Config.regAllLed + 1) 0x00))
  | 3 => some (.bus (.wr8 (Config.regAllLed + 2) 0x00))
  | 4 => some (.bus (.wr8 (Config.regAllLed + 3) 0x00))
  | _ => none

/-- OPEN's step `k` (R141). -/
def openStep (k : Nat) : Option Micro :=
  match k with
  | 0 => some (.bus .acq)
  | j + 1 => resetWrite j

/-- CLOSE's step `k` (R146). -/
def closeStep (k : Nat) : Option Micro := if k = 5 then some (.bus .rel) else resetWrite k

/-- SETFREQ's step `k` (R172). -/
def freqStep (old pre : Byte) (k : Nat) : Option Micro :=
  match k with
  | 0 => some (.bus (.rd8 Config.regMode1))
  | 1 => some (.bus (.wr8 Config.regMode1 (sleepVariant old)))
  | 2 => some (.bus (.wr8 Config.regPrescale pre))
  | 3 => some (.bus (.wr8 Config.regMode1 old))
  | 4 => some .delay
  | 5 => some (.bus (.wr8 Config.regMode1 (finalMode old)))
  | _ => none

/-- The write group's step `k` (R212): ON_L, ON_H, OFF_L, OFF_H. -/
def groupStep (on off : Tick) (base : Byte) (k : Nat) : Option Micro :=
  match k with
  | 0 => some (.bus (.wr8 base (lowByte on)))
  | 1 => some (.bus (.wr8 (base + 1) (highByte on)))
  | 2 => some (.bus (.wr8 (base + 2) (lowByte off)))
  | 3 => some (.bus (.wr8 (base + 3) (highByte off)))
  | _ => none

/-- The entry of R244's tables at (SEQ, STEP). -/
def State.micro (s : State) : Option Micro :=
  match s.seq with
  | .idle => none
  | .openSeq => openStep s.step.toNat
  | .closeSeq => closeStep s.step.toNat
  | .resetSeq => resetWrite s.step.toNat
  | .freqSeq => freqStep s.old s.pre s.step.toNat
  | .chanSeq => groupStep s.on s.off s.base s.step.toNat
  | .allSeq => groupStep s.on s.off s.base s.step.toNat

/-- The last step of each table (R244). -/
def SeqId.lastStep : SeqId → Nat
  | .idle => 0
  | .openSeq => 5
  | .closeSeq => 5
  | .resetSeq => 4
  | .freqSeq => 5
  | .chanSeq => 3
  | .allSeq => 3

/-- The register group a command writes (R13, U1). -/
def State.group (s : State) : List Byte :=
  match s.seq with
  | .idle => []
  | .openSeq | .closeSeq | .resetSeq =>
    [Config.regMode1, Config.regAllLed, Config.regAllLed + 1, Config.regAllLed + 2, Config.regAllLed + 3]
  | .freqSeq => [Config.regMode1, Config.regPrescale]
  | .chanSeq | .allSeq => [s.base, s.base + 1, s.base + 2, s.base + 3]

/-! ### A successful step (R243) -/

/-- The `done:` line of the running command (R141, R145, R171, R213, R214). CLOSE ends with its REL. -/
def finish (s : State) : Result :=
  match s.seq with
  | .openSeq => .next ((s.setSt .ready).respond s.seq.op .ok 0)
  | .resetSeq => .next (s.respond s.seq.op .ok 0)
  | .freqSeq =>
    .next (({ s with actual := BitVec.ofNat 14 (adj s.hzl.toNat) }.setSt .ready).respond s.seq.op .ok
      (BitVec.ofNat 16 (adj s.hzl.toNat)))
  | .chanSeq => .next (s.respond s.seq.op .ok 0)
  | .allSeq => .next (s.respond s.seq.op .ok 0)
  | .closeSeq => .fault .noSuchStep
  | .idle => .fault .noSuchStep

/-- `STEP <- STEP + 1`; entering SETFREQ's step 4 loads TMR (R291). -/
def State.nextStep (s : State) : State :=
  { s with
    step := s.step + 1
    tmr := if s.seq = .freqSeq ∧ s.step = 3 then Config.settleCycles else s.tmr }

/-- After a step's success: the next step, or the command's `done:` line after the last (R243). -/
def stepDone (s : State) : Result :=
  if s.step.toNat = s.seq.lastStep then finish s else .next s.nextStep

/-! ### A failed transaction (R245) -/

/-- What a FAIL does: OPEN issues REL and completes when it is answered (R143); CLOSE skips to its release
(R147); the rest abort with IoFailure, SETFREQ going back to READY (R145, R181, R215, R276). -/
def failed (s : State) : Result :=
  match s.seq with
  | .openSeq => .next (s.request .rel)
  | .closeSeq => .next (s.goto .closeSeq 5)
  | .resetSeq => .next (s.respond s.seq.op .ioFailure 0)
  | .freqSeq => .next ((s.setSt .ready).respond s.seq.op .ioFailure 0)
  | .chanSeq => .next (s.respond s.seq.op .ioFailure 0)
  | .allSeq => .next (s.respond s.seq.op .ioFailure 0)
  | .idle => .fault .noSuchStep

/-- A FAIL: the group's registers take any value (R65, U1), then the command's failure action. -/
def ioFail (a : BusAddr) (s : State) : Result := failed (s.devForgetAll a s.group)

/-! ### Answers -/

/-- ACQ's answer, OPEN step 0 (R141, R142). -/
def acqAnswered (a : BusStatus) (s : State) : Result :=
  match a with
  | .ok => stepDone { s with held := true }
  | .notFound => .next ((s.setSt .unopened).respond s.seq.op .deviceUnavailable 0)
  | .inUse => .next ((s.setSt .unopened).respond s.seq.op .deviceBusy 0)
  | .fail => .refused .providerContract

/-- REL's answer: the end of CLOSE (R146), or of an OPEN whose reset sequence failed (R143). -/
def relAnswered (s : State) : Result :=
  match s.seq with
  | .closeSeq => .next (({ s with held := false }.setSt .closed).respond s.seq.op .ok 0)
  | .openSeq => .next (({ s with held := false }.setSt .unopened).respond s.seq.op .ioFailure 0)
  | .idle | .resetSeq | .freqSeq | .chanSeq | .allSeq => .fault .noSuchStep

/-- The effect of an allowed answer to the request `q` (R61 to R65). -/
def answerEffect (q : BusReq) (a : BusRsp) (s : State) : Result :=
  match q.op with
  | .acq => acqAnswered a.status s
  | .rel => relAnswered s
  | .wr8 reg val =>
    if a.status = .ok then stepDone (s.devWrite q.addr7 reg val) else ioFail q.addr7 s
  | .rd8 _ =>
    if a.status = .ok then stepDone { s with old := a.rdata } else ioFail q.addr7 s

/-- The provider answers `a` and `rest` is what it answers later: the request is no longer outstanding. -/
def State.answered (s : State) (q : BusReq) (a : BusRsp) (rest : List BusRsp) : State :=
  { s with req := none, bus := rest, events := .txn q a :: s.events }

/-- With a request outstanding: wait for the provider (R60, R246); a status the kind does not allow is refused
(R110, U9). -/
def awaitAnswer (q : BusReq) (s : State) : Result :=
  match s.bus with
  | [] => .next s
  | a :: rest =>
    if statusAllowed q.op a.status then answerEffect q a (s.answered q a rest)
    else .refused .providerContract

/-- The settle delay (R290, R291): the clocks that pass in this step are counted off TMR, and the delay ends when it
reaches 0. When they pass is the environment's, with no bound (R37, R246): with no time to come the block waits. -/
def countDown (s : State) : Result :=
  match s.clk with
  | [] => .next s
  | c :: later =>
    if s.tmr ≤ c then .next ({ s with tmr := 0, step := s.step + 1, clk := later }.log .delay)
    else .next { s with tmr := s.tmr - c, clk := later }

/-- With no request outstanding: issue the request of (SEQ, STEP), or count the delay down (R243). -/
def issue (s : State) : Result :=
  match s.micro with
  | none => .fault .noSuchStep
  | some (.bus op) => .next (s.request op)
  | some .delay => countDown s

/-- One step of the sequencer; idle, the block waits for a command (R311). -/
def sequencerStep (s : State) : Result :=
  if s.seq = .idle then .next s
  else
    match s.req with
    | some q => awaitAnswer q s
    | none => issue s

end Sys2Proof.Machine
end

