-- ==== Sys2Proof/Machine/Fetch.lean ====
section
/-! DEFINITION. One step of the machine: the status port, the response port, `rst`, the command port, and
otherwise the sequencer (R100, R241, R242, R294; the order among them is log entry 8). -/

namespace Sys2Proof.Machine

/-- Accepting the word `w` (R112, R242): an illegal word answers IllegalCommand and changes nothing but LASTERR
(R109); a legal one is the command's meaning. -/
def acceptWord (w : Word) (s : State) : Result :=
  match decode w with
  | .error _ => .next ((s.log (.cmd w)).respond (opField w) .illegalCommand 0)
  | .ok i => exec i (s.log (.cmd w))

/-- A status read: its value goes to the host, the block is unchanged (R32). -/
def readStatus (n : BitVec 3) (s : State) : Result := .next (s.log (.readSR n (s.statusRegister n)))

/-- The host's next action, with no response pending; `rest` is what it does after. A word waits while the
sequencer runs (R241). -/
def hostStep (act : HostAct) (rest : List HostAct) (s : State) : Result :=
  match act with
  | .readSR n => readStatus n { s with host := rest }
  | .rst => assertReset { s with host := rest }
  | .pass => sequencerStep { s with host := rest }
  | .cmd w => if s.seq = .idle then acceptWord w { s with host := rest } else sequencerStep s

/-- One step: a status read at any time; then a pending response is handed over; then the host's other actions;
with nothing from the host, the sequencer. -/
def machineStep (s : State) : Result :=
  match s.host with
  | [] =>
    match s.rsp with
    | some r => .next (s.deliver r)
    | none => sequencerStep s
  | .readSR n :: rest => hostStep (.readSR n) rest s
  | act :: rest =>
    match s.rsp with
    | some r => .next (s.deliver r)
    | none => hostStep act rest s

end Sys2Proof.Machine
end

