-- ==== Sys2Proof/Machine/Step.lean ====
section
/-! DEFINITION. The machine's step, and placing a command word where the next step accepts it. -/

namespace Sys2Proof.Machine

/-- One step of the machine. -/
def step (s : State) : Host.Outcome State Fault Refusal := machineStep s

/-- The word is what the host presents next, and the block is ready for it (`cmd_ready`, R100): no sequence is
running and no response is pending (log entry 9). -/
def State.withFetchWord (s : State) (nbits w : Nat) : State :=
  { s with
    host := .cmd (tableWord nbits w) :: s.host
    seq := .idle
    step := 0
    req := none
    rsp := none }

end Sys2Proof.Machine
end

