-- ==== Sys2Proof/Safety.lean ====
section
/-! DEFINITION. The terms claims use: what holds between two steps of every run the spec describes (the parts of
`Safety.Inv`), which registers a step may store to, the measure by which a sequence moves forward, and what a
host that keeps quiet looks like. -/

namespace Sys2Proof.Safety

open Sys2Proof.Machine

/-! ### Counting events -/

/-- The event is an ACQ answered OK (R148). -/
def isAcquired : Event → Bool
  | .txn q a => q.op == .acq && a.status == .ok
  | _ => false

/-- The event is a REL (R148). -/
def isReleased : Event → Bool
  | .txn q _ => q.op == .rel
  | _ => false

/-- The event is the acceptance of a command word. -/
def isCommand : Event → Bool
  | .cmd _ => true
  | _ => false

/-- The event is a response. -/
def isResponse : Event → Bool
  | .rsp _ => true
  | _ => false

/-- An ACQ, WR8, RD8 or REL on the channel port. -/
def isTransaction : Event → Bool
  | .txn _ _ => true
  | _ => false

/-- A transaction answered OK, as an event. -/
def okTxn (a : BusAddr) (op : BusOp) (r : Byte) : Event :=
  .txn { addr7 := a, op := op } { status := .ok, rdata := r }

/-! ### The parts of the invariant -/

/-- ST is transient exactly while its sequence runs (R22, R23, R149, R184). -/
def lifecycleAgrees (s : State) : Bool :=
  match s.seq with
  | .idle => s.st == .unopened || s.st == .ready || s.st == .closed
  | .openSeq => s.st == .opening
  | .freqSeq => s.st == .reconfiguring
  | .closeSeq | .resetSeq | .chanSeq | .allSeq => s.st == .ready

/-- `k` is an index of the table of `q`, 0 while idle (R27). -/
def stepInTable (q : SeqId) (k : BitVec 3) : Bool := decide (k.toNat ≤ q.lastStep)

/-- STEP is an index of SEQ's table (R27). -/
def positionAgrees (s : State) : Bool := stepInTable s.seq s.step

/-- HELD is 1 in READY and RECONFIGURING, and in OPENING from step 1 on, and in no other state (R30). -/
def heldAgrees (s : State) : Bool :=
  s.held == (s.st == .ready || s.st == .reconfiguring || (s.st == .opening && s.step != 0))

/-- The outstanding request is the one of (SEQ, STEP), or the REL of OPEN's failure path, and it is addressed to
ADDR (R61, R143, R244). -/
def requestAgrees (s : State) : Bool :=
  match s.req with
  | none => true
  | some q =>
    q.addr7 == s.addr &&
      (s.micro == some (.bus q.op) || (s.seq == .openSeq && s.step != 0 && q.op == .rel))

/-- A response is pending only while idle, and carries LASTERR's code (R100, R108, R31). -/
def responseAgrees (s : State) : Bool :=
  match s.rsp with
  | none => true
  | some w => s.seq == .idle && w.extractLsb' 0 4 == s.lastErr.code && w.extractLsb' 24 8 == 0

/-- `a` is `9 * hz` of an accepted frequency `hz` (R33). -/
def frequencyLegal (a : BitVec 14) : Bool :=
  decide (360 ≤ a.toNat) && decide (a.toNat ≤ 9000) && decide (a.toNat % 9 = 0)

/-- ACTUAL is 0 or `9 * hz` of an accepted frequency, and 0 before READY (R33, R34). -/
def actualAgrees (s : State) : Bool :=
  s.actual == 0 || (frequencyLegal s.actual && !(s.st == .unopened || s.st == .opening))

/-- The pair is one the encoder produces (R207). -/
def pairProducible (on off : Nat) : Bool :=
  (decide (on = 0) && decide (1 ≤ off) && decide (off ≤ 4096)) ||
    ((decide (on = 4095) || decide (on = 4096)) && decide (off = 0))

/-- `b` is the base address of a channel's registers (R68). -/
def channelBaseLegal (b : Byte) : Bool :=
  decide (6 ≤ b.toNat) && decide (b.toNat ≤ 0x42) && decide (b.toNat % 4 = 2)

/-- While a sequence runs, the latches it reads hold what its command loaded (R25, R171, R211, R213, R214). -/
def latchesAgree (s : State) : Bool :=
  match s.seq with
  | .idle | .openSeq | .closeSeq | .resetSeq => true
  | .freqSeq => inRange s.hzl.toNat && s.pre == prescaleByte s.hzl.toNat
  | .chanSeq => pairProducible s.on.toNat s.off.toNat && channelBaseLegal s.base
  | .allSeq => pairProducible s.on.toNat s.off.toNat && s.base == Config.regAllLed

/-- The registers the block writes (R67, R71): MODE1, LEDn, ALL_LED, PRESCALE. -/
def writable (reg : Byte) : Bool :=
  reg == Config.regMode1 || (decide (6 ≤ reg.toNat) && decide (reg.toNat ≤ 0x45)) ||
    (decide (0xFA ≤ reg.toNat) && decide (reg.toNat ≤ 0xFE))

/-- The device register list is canonical and lists only registers the block writes. -/
def deviceAgrees (s : State) : Bool :=
  Memory.wf s.dev &&
    s.dev.all fun c => decide (c.1 < 32768) && writable (BitVec.ofNat 8 c.1)

/-- As many releases as successful acquisitions, but for a handle still held (R148). -/
def handleAccounted (s : State) : Bool :=
  s.events.countP isAcquired == s.events.countP isReleased + s.held.toNat

/-- As many responses as accepted commands, but for a command still running or a response still pending
(R108). -/
def responsesAccounted (s : State) : Bool :=
  s.events.countP isCommand ==
    s.events.countP isResponse + (s.seq != .idle || s.rsp.isSome).toNat

/-- What holds between two steps of every run. -/
abbrev Inv (s : State) : Prop :=
  lifecycleAgrees s = true ∧ positionAgrees s = true ∧ heldAgrees s = true ∧ requestAgrees s = true ∧
    responseAgrees s = true ∧ actualAgrees s = true ∧ latchesAgree s = true ∧ deviceAgrees s = true ∧
    handleAccounted s = true ∧ responsesAccounted s = true

/-! ### Steps of the sequencer -/

/-- The host does nothing while the sequencer runs: it has nothing to do, or presents a word that waits (R241,
R294). -/
def hostQuiet : List HostAct → Bool
  | [] => true
  | .cmd _ :: _ => true
  | _ => false

/-- A sequence is running, no response is pending and the host keeps quiet: the next step is the sequencer's. -/
abbrev Running (s : State) : Prop := s.seq ≠ .idle ∧ s.rsp = none ∧ hostQuiet s.host = true

/-- The registers, by `deviceKey`, that the answer at the head of `bus` to the outstanding request stores to:
the register of a successful WR8 (R61), the whole group after a FAIL (R65, U1). -/
def storedKeys (s : State) : List Nat :=
  match s.req, s.bus with
  | some q, a :: _ =>
    match q.op with
    | .acq => []
    | .rel => []
    | .wr8 reg _ =>
      if a.status = .ok then [deviceKey q.addr7 reg] else s.group.map (deviceKey q.addr7)
    | .rd8 _ => if a.status = .ok then [] else s.group.map (deviceKey q.addr7)
  | _, _ => []

/-- The answer at the head of `bus` is one the outstanding request's kind allows, or nothing is outstanding. -/
def answerReady (s : State) : Bool :=
  match s.req, s.bus with
  | none, _ => true
  | some _, [] => false
  | some q, a :: _ => statusAllowed q.op a.status

/-- The environment lets the delay move on (R246): outside the delay it need not, in it a clock passes. -/
def timePasses (s : State) : Bool :=
  match s.micro, s.clk with
  | some .delay, [] => false
  | some .delay, c :: _ => decide (0 < c) || decide (s.tmr = 0)
  | _, _ => true

/-- How far a running sequence is from its end (R246): steps to go, the phase of the current transaction, and
the counts of the settle delay still to come. -/
def distance (s : State) : Nat :=
  if s.seq = .idle then 0
  else
    4 * (6 - s.step.toNat)
      + (match s.req with
        | none => 3
        | some q => if q.op = .rel then 1 else 2)
      + (if s.seq = .freqSeq then
          (if s.step.toNat < 4 then Config.settleCycles else if s.step.toNat = 4 then s.tmr else 0)
        else 0)

/-! ### The byte read from MODE1 (R81) -/

/-- The same request kind, registers and data, but for the data of a write to MODE1. -/
def opAlike (p q : BusOp) : Prop :=
  p = q ∨ ∃ v v', p = .wr8 Config.regMode1 v ∧ q = .wr8 Config.regMode1 v'

/-- Both ports empty, or requests to one address alike in kind, register and data. -/
def reqAlike (p q : Option BusReq) : Prop :=
  p = q ∨ ∃ a o o', p = some { addr7 := a, op := o } ∧ q = some { addr7 := a, op := o' } ∧ opAlike o o'

/-- The same event, or transactions alike in request and status. -/
def eventAlike (d e : Event) : Prop :=
  d = e ∨ ∃ a o o' x y, d = .txn { addr7 := a, op := o } x ∧ e = .txn { addr7 := a, op := o' } y ∧
    opAlike o o' ∧ x.status = y.status

/-- The states agree but for what the bytes read from MODE1 may decide: OLD, the bytes still to be answered, the data
of MODE1 writes, and MODE1 itself. -/
def AlikeButForReadBytes (s s' : State) : Prop :=
  s' = { s with old := s'.old, req := s'.req, bus := s'.bus, events := s'.events, dev := s'.dev } ∧
    reqAlike s.req s'.req ∧ List.Forall₂ eventAlike s.events s'.events ∧
    s.bus.map BusRsp.status = s'.bus.map BusRsp.status ∧
    ∀ k : Nat, k % 256 ≠ 0 → Memory.read s'.dev k = Memory.read s.dev k

/-! ### Operand ranges (R171, R210) -/

/-- The operands for which R171 and R210 give OutOfRange. -/
def operandOutOfRange : Instr → Bool
  | .openCmd _ => false
  | .closeCmd => false
  | .resetCmd => false
  | .setFreq hz => decide (hz < 40) || decide (1000 < hz)
  | .setCh ch _ _ => decide (15 < ch)
  | .setAll _ _ => false

/-! ### Runs -/

/-- `n` steps of the machine behind `core`, stopping at a fault or a refusal. -/
def runSteps (n : Nat) (s : State) : Result := Sys2Proof.core.run n s

/-- The end of a session (R297): idle, and closed, or not opened and without a handle. -/
def sessionOver (s : State) : Bool :=
  s.seq == .idle && (s.st == .closed || (s.st == .unopened && !s.held))

end Sys2Proof.Safety
end

