-- ==== Sys2Proof/Certificates/Slice0/Obligations.lean ====
section
/-! DEFINITION. The statements for the provers. `events`, `host`, `bus`, `clk`, `dev` and `draws` are the model's own
fields (log entries 2 to 7): where a statement names them it says in the model's terms which transactions the
block made, what the host and the provider do, and what the device registers were given. -/

open Sys2Proof Sys2Proof.Machine Sys2Proof.Safety

/-! ### Encoding -/

/-- R103, R109, R113 and 95_test_vectors.md V14: words written out from the encoding, each with its command. -/
def Obligations.SampleWordsDecode : Prop :=
  decode 0x10000040 = .ok (.openCmd 0x40) ∧ decode 0x1000007F = .ok (.openCmd 0x7F) ∧
    decode 0x20000000 = .ok .closeCmd ∧ decode 0x30000000 = .ok .resetCmd ∧
    decode 0x40000032 = .ok (.setFreq 50) ∧ decode 0x50500FFF = .ok (.setCh 5 false 4095) ∧
    decode 0x5FF1FFFF = .ok (.setCh 255 true (-1)) ∧ decode 0x60011000 = .ok (.setAll true 4096) ∧
    decode 0x10000080 = .error .operandUnused ∧ decode 0x50520FFF = .error .zeroNotZero ∧
    decode 0x40100032 = .error .channelUnused ∧ decode 0x20010000 = .error .polarityUnused ∧
    decode 0x00000000 = .error .badOpcode

/-- R112, R113: for every well-formed command, decoding its encoding gives it back, every operand with it. -/
def Obligations.DecodeOfEncode : Prop :=
  ∀ i : Instr, WellFormed i → decode (encode i) = .ok i

/-- R103, R112: a word that decodes is the encoding of the command it decodes to, which is well formed. -/
def Obligations.EncodeOfDecode : Prop :=
  ∀ (w : Word) (i : Instr), decode w = .ok i → WellFormed i ∧ encode i = w

/-- R109: which words are illegal, and what one does: ERR 7, RESULT 0, in every lifecycle state, no transaction,
no state change but LASTERR. -/
def Obligations.IllegalWords : Prop :=
  (∀ w : Word, (∃ e, decode w = .error e) ↔
      (opField w = 0 ∨ 7 ≤ (opField w).toNat ∨ zeroField w ≠ 0 ∨ (opField w ≠ 5 ∧ chField w ≠ 0) ∨
        (opField w ≠ 5 ∧ opField w ≠ 6 ∧ invField w ≠ 0) ∨
        ((opField w = 2 ∨ opField w = 3) ∧ immField w ≠ 0) ∨
        (opField w = 1 ∧ (immField w).extractLsb' 7 9 ≠ 0))) ∧
    ∀ (s : State) (w : Word) (later : List HostAct) (e : Illegal),
      s.seq = .idle → s.step = 0 → s.rsp = none → s.host = .cmd w :: later → decode w = .error e →
      step s = .next { s with
        lastErr := .illegalCommand
        rsp := some (responseWord (opField w) .illegalCommand 0)
        host := later
        events := .cmd w :: s.events }

/-! ### Accepting a command -/

/-- R241, R242: when the block is ready and the presented word decodes, the step is the command's meaning, on
the state in which the word is taken from the host and recorded. Placing a word makes it the next one accepted
(log entry 9). -/
def Obligations.StepRunsDecodedCommand : Prop :=
  (∀ (s : State) (w : Word) (later : List HostAct) (i : Instr),
      s.seq = .idle → s.rsp = none → s.host = .cmd w :: later → decode w = .ok i →
      step s = exec i { s with host := later, events := .cmd w :: s.events }) ∧
    ∀ (s : State) (i : Instr), decode (encode i) = .ok i →
      step (s.withFetchWord 32 (encode i).toNat) =
        exec i { s with
          seq := .idle
          step := 0
          req := none
          rsp := none
          events := .cmd (encode i) :: s.events }

/-- R241: a word presented while a sequence runs waits: it stays where it is, and the step is the one the block
takes with no word presented. -/
def Obligations.CommandWaitsWhileBusy : Prop :=
  ∀ (s t : State) (w : Word) (later : List HostAct),
    s.seq ≠ .idle → s.host = .cmd w :: later → step s = .next t →
    t.host = s.host ∧ step { s with host := [] } = .next { t with host := [] }

/-- R248, R249: the lifecycle check, before every operand check: a command the state does not allow changes
LASTERR only and answers BadState or Closed; one it allows is run: its sequence starts, or, exactly for an operand
out of range, it answers OutOfRange. -/
def Obligations.LifecycleCheck : Prop :=
  ∀ (i : Instr) (s : State), s.seq = .idle → s.step = 0 →
    (s.st = .closed →
      exec i s = .next { s with lastErr := .closed, rsp := some (responseWord (opcodeOf i) .closed 0) }) ∧
    ((s.st = .unopened ∧ opcodeOf i ≠ 1) ∨ (s.st = .ready ∧ opcodeOf i = 1) →
      exec i s = .next { s with lastErr := .badState, rsp := some (responseWord (opcodeOf i) .badState 0) }) ∧
    ((s.st = .unopened ∧ opcodeOf i = 1) ∨ (s.st = .ready ∧ opcodeOf i ≠ 1) →
      ∃ t, exec i s = .next t ∧
        (operandOutOfRange i = false → t.seq.op = opcodeOf i ∧ t.step = 0 ∧ t.rsp = s.rsp) ∧
        (operandOutOfRange i = true →
          t = { s with lastErr := .outOfRange, rsp := some (responseWord (opcodeOf i) .outOfRange 0) }))

/-- The model's choice (log entry 10) for what R248 says cannot occur: a command accepted in OPENING or
RECONFIGURING stops the model, whichever command it is. -/
def Obligations.AcceptanceWhileTransientStops : Prop :=
  ∀ (i : Instr) (s : State), s.st = .opening ∨ s.st = .reconfiguring → exec i s = .fault .transientWhileIdle

/-- The `accept:` lines of R141, R145 and R146: OPEN in UNOPENED, RESET and CLOSE in READY. -/
def Obligations.LifecycleCommandsAccepted : Prop :=
  (∀ (s : State) (a : Nat), s.st = .unopened →
      exec (.openCmd a) s =
        .next { s with addr := BitVec.ofNat 7 a, st := .opening, seq := .openSeq, step := 0 }) ∧
    (∀ s : State, s.st = .ready → exec .resetCmd s = .next { s with seq := .resetSeq, step := 0 }) ∧
    ∀ s : State, s.st = .ready → exec .closeCmd s = .next { s with seq := .closeSeq, step := 0 }

/-- The `accept:` line of R171: in range, the latches, RECONFIGURING and the sequence; out of range, OutOfRange
and nothing else. -/
def Obligations.SetFreqAccepted : Prop :=
  ∀ (s : State) (hz : Nat), s.st = .ready →
    (40 ≤ hz ∧ hz ≤ 1000 →
      exec (.setFreq hz) s =
        .next { s with
          hzl := BitVec.ofNat 16 hz
          pre := prescaleByte hz
          st := .reconfiguring
          seq := .freqSeq
          step := 0 }) ∧
    (hz < 40 ∨ 1000 < hz →
      exec (.setFreq hz) s =
        .next { s with
          lastErr := .outOfRange
          seq := .idle
          step := 0
          rsp := some (responseWord 4 .outOfRange 0) })

/-- R210 and the `accept:` lines of R213 and R214: the tick pair and the base address are latched and the write
group starts; a SETCH to a channel above 15 answers OutOfRange, whatever DUTY and INV; SETALL never does. -/
def Obligations.DutyCommandsAccepted : Prop :=
  ∀ (s : State) (inv : Bool) (duty : Int), s.st = .ready →
    (∀ ch : Nat, ch ≤ 15 →
      exec (.setCh ch inv duty) s =
        .next { s with
          on := onTick inv duty
          off := offTick inv duty
          base := BitVec.ofNat 8 (6 + 4 * ch)
          seq := .chanSeq
          step := 0 }) ∧
    (∀ ch : Nat, 15 < ch →
      exec (.setCh ch inv duty) s =
        .next { s with
          lastErr := .outOfRange
          seq := .idle
          step := 0
          rsp := some (responseWord 5 .outOfRange 0) }) ∧
    exec (.setAll inv duty) s =
      .next { s with
        on := onTick inv duty
        off := offTick inv duty
        base := 0xFA
        seq := .allSeq
        step := 0 }

/-- What accepting a command leaves unchanged (R242): for every command, HELD, ACTUAL, OLD, TMR, the ports'
outstanding request, every device register and everything recorded; ADDR but for OPEN, HZL and PRE but for
SETFREQ, ON, OFF and BASE but for SETCH and SETALL, ST but for OPEN and SETFREQ. -/
def Obligations.AcceptanceFrame : Prop :=
  ∀ (i : Instr) (s t : State), exec i s = .next t →
    t.held = s.held ∧ t.actual = s.actual ∧ t.old = s.old ∧ t.tmr = s.tmr ∧ t.req = s.req ∧ t.bus = s.bus ∧
      t.host = s.host ∧ t.clk = s.clk ∧ t.events = s.events ∧ t.draws = s.draws ∧
      (∀ k : Nat, Memory.read t.dev k = Memory.read s.dev k) ∧
      (opcodeOf i ≠ 1 → t.addr = s.addr) ∧
      (opcodeOf i ≠ 4 → t.hzl = s.hzl ∧ t.pre = s.pre) ∧
      (opcodeOf i ≠ 5 → opcodeOf i ≠ 6 → t.on = s.on ∧ t.off = s.off ∧ t.base = s.base) ∧
      (opcodeOf i ≠ 1 → opcodeOf i ≠ 4 → t.st = s.st)

/-! ### Whole commands -/

/-- R141, R142: OPEN in UNOPENED. With every answer OK: ACQ and the five writes of the reset sequence in order,
then READY with the handle held. With NOT_FOUND or IN_USE: no further transaction, no handle, UNOPENED again,
and the two answers reported apart. -/
def Obligations.OpenCommand : Prop :=
  ∀ (s : State) (a : Nat), s.st = .unopened → s.req = none → s.rsp = none → hostQuiet s.host = true →
    (∀ (r0 r1 r2 r3 r4 r5 : Byte) (rest : List BusRsp),
      s.bus = ⟨.ok, r0⟩ :: ⟨.ok, r1⟩ :: ⟨.ok, r2⟩ :: ⟨.ok, r3⟩ :: ⟨.ok, r4⟩ :: ⟨.ok, r5⟩ :: rest →
      ∃ (s1 : State) (n : Nat), exec (.openCmd a) s = .next s1 ∧
        runSteps n s1 = .next { s with
          addr := BitVec.ofNat 7 a
          st := .ready
          held := true
          seq := .idle
          step := 0
          lastErr := .ok
          bus := rest
          dev :=
            Memory.write (Memory.write (Memory.write (Memory.write (Memory.write s.dev
              (deviceKey (BitVec.ofNat 7 a) 0x00) 0) (deviceKey (BitVec.ofNat 7 a) 0xFA) 0)
              (deviceKey (BitVec.ofNat 7 a) 0xFB) 0) (deviceKey (BitVec.ofNat 7 a) 0xFC) 0)
              (deviceKey (BitVec.ofNat 7 a) 0xFD) 0
          events :=
            .rsp (responseWord 1 .ok 0) ::
              okTxn (BitVec.ofNat 7 a) (.wr8 0xFD 0) r5 :: okTxn (BitVec.ofNat 7 a) (.wr8 0xFC 0) r4 ::
              okTxn (BitVec.ofNat 7 a) (.wr8 0xFB 0) r3 :: okTxn (BitVec.ofNat 7 a) (.wr8 0xFA 0) r2 ::
              okTxn (BitVec.ofNat 7 a) (.wr8 0x00 0) r1 :: okTxn (BitVec.ofNat 7 a) .acq r0 :: s.events }) ∧
    ∀ (x : BusStatus) (e : ErrKind) (r : Byte) (rest : List BusRsp),
      (x = .notFound ∧ e = .deviceUnavailable) ∨ (x = .inUse ∧ e = .deviceBusy) →
      s.bus = ⟨x, r⟩ :: rest →
      ∃ (s1 : State) (n : Nat), exec (.openCmd a) s = .next s1 ∧
        runSteps n s1 = .next { s with
          addr := BitVec.ofNat 7 a
          st := .unopened
          seq := .idle
          step := 0
          lastErr := e
          bus := rest
          events :=
            .rsp (responseWord 1 e 0) ::
              .txn { addr7 := BitVec.ofNat 7 a, op := .acq } { status := x, rdata := r } :: s.events }

/-- R143: a FAIL in OPEN's reset sequence: the remaining writes are not issued, REL is issued, the handle is
given up, UNOPENED, IoFailure; registers outside MODE1 and the ALL_LED group are unchanged (R65). -/
def Obligations.OpenReleasesOnFailure : Prop :=
  ∀ (s : State) (q : BusReq) (reg val r r' : Byte) (rest : List BusRsp),
    Running s → s.seq = .openSeq → 1 ≤ s.step.toNat → s.step.toNat ≤ 5 → s.req = some q → q.op = .wr8 reg val →
    s.bus = ⟨.fail, r⟩ :: ⟨.ok, r'⟩ :: rest →
    ∃ (t : State) (n : Nat), runSteps n s = .next t ∧
      t.st = .unopened ∧ t.held = false ∧ t.seq = .idle ∧ t.step = 0 ∧ t.lastErr = .ioFailure ∧ t.req = none ∧
      t.rsp = none ∧ t.bus = rest ∧ t.actual = s.actual ∧ t.addr = s.addr ∧ t.host = s.host ∧
      t.events =
        .rsp (responseWord 1 .ioFailure 0) ::
          .txn { addr7 := s.addr, op := .rel } { status := .ok, rdata := r' } ::
          .txn q { status := .fail, rdata := r } :: s.events ∧
      ∀ k : Nat, k ∉ ([0x00, 0xFA, 0xFB, 0xFC, 0xFD] : List Byte).map (deviceKey q.addr7) →
        Memory.read t.dev k = Memory.read s.dev k

/-- R145: RESET in READY: the five writes of R140 in order, ST stays READY and nothing else of the block changes
but LASTERR; a FAIL at any step ends it with IoFailure, and registers outside MODE1 and the ALL_LED group are
unchanged (R65). -/
def Obligations.ResetCommand : Prop :=
  (∀ (s : State) (r0 r1 r2 r3 r4 : Byte) (rest : List BusRsp),
      s.st = .ready → s.req = none → s.rsp = none → hostQuiet s.host = true →
      s.bus = ⟨.ok, r0⟩ :: ⟨.ok, r1⟩ :: ⟨.ok, r2⟩ :: ⟨.ok, r3⟩ :: ⟨.ok, r4⟩ :: rest →
      ∃ (s1 : State) (n : Nat), exec .resetCmd s = .next s1 ∧
        runSteps n s1 = .next { s with
          seq := .idle
          step := 0
          lastErr := .ok
          bus := rest
          dev :=
            Memory.write (Memory.write (Memory.write (Memory.write (Memory.write s.dev
              (deviceKey s.addr 0x00) 0) (deviceKey s.addr 0xFA) 0) (deviceKey s.addr 0xFB) 0)
              (deviceKey s.addr 0xFC) 0) (deviceKey s.addr 0xFD) 0
          events :=
            .rsp (responseWord 3 .ok 0) ::
              okTxn s.addr (.wr8 0xFD 0) r4 :: okTxn s.addr (.wr8 0xFC 0) r3 :: okTxn s.addr (.wr8 0xFB 0) r2 ::
              okTxn s.addr (.wr8 0xFA 0) r1 :: okTxn s.addr (.wr8 0x00 0) r0 :: s.events }) ∧
    ∀ (s : State) (q : BusReq) (reg val r : Byte) (rest : List BusRsp),
      Running s → s.seq = .resetSeq → s.st = .ready → s.req = some q → q.op = .wr8 reg val →
      s.bus = ⟨.fail, r⟩ :: rest →
      ∃ t : State, step s = .next t ∧
        t.st = .ready ∧ t.held = s.held ∧ t.actual = s.actual ∧ t.addr = s.addr ∧ t.seq = .idle ∧ t.step = 0 ∧
        t.req = none ∧ t.lastErr = .ioFailure ∧ t.rsp = some (responseWord 3 .ioFailure 0) ∧
        t.events = .txn q { status := .fail, rdata := r } :: s.events ∧
        ∀ k : Nat, k ∉ ([0x00, 0xFA, 0xFB, 0xFC, 0xFD] : List Byte).map (deviceKey q.addr7) →
          Memory.read t.dev k = Memory.read s.dev k

/-- R146: CLOSE in READY with every answer OK: the five writes of R140, REL, then CLOSED without a handle, and
the answer is success. -/
def Obligations.CloseCommand : Prop :=
  ∀ (s : State) (r0 r1 r2 r3 r4 r5 : Byte) (rest : List BusRsp),
    s.st = .ready → s.req = none → s.rsp = none → hostQuiet s.host = true →
    s.bus = ⟨.ok, r0⟩ :: ⟨.ok, r1⟩ :: ⟨.ok, r2⟩ :: ⟨.ok, r3⟩ :: ⟨.ok, r4⟩ :: ⟨.ok, r5⟩ :: rest →
    ∃ (s1 : State) (n : Nat), exec .closeCmd s = .next s1 ∧
      runSteps n s1 = .next { s with
        st := .closed
        held := false
        seq := .idle
        step := 0
        lastErr := .ok
        bus := rest
        dev :=
          Memory.write (Memory.write (Memory.write (Memory.write (Memory.write s.dev
            (deviceKey s.addr 0x00) 0) (deviceKey s.addr 0xFA) 0) (deviceKey s.addr 0xFB) 0)
            (deviceKey s.addr 0xFC) 0) (deviceKey s.addr 0xFD) 0
        events :=
          .rsp (responseWord 2 .ok 0) ::
            okTxn s.addr .rel r5 ::
            okTxn s.addr (.wr8 0xFD 0) r4 :: okTxn s.addr (.wr8 0xFC 0) r3 :: okTxn s.addr (.wr8 0xFB 0) r2 ::
            okTxn s.addr (.wr8 0xFA 0) r1 :: okTxn s.addr (.wr8 0x00 0) r0 :: s.events }

/-- R147: a FAIL in CLOSE's reset sequence is swallowed: the writes after it are not issued, REL still is, the
response is success and LASTERR is 0. -/
def Obligations.CloseSwallowsFailure : Prop :=
  ∀ (s : State) (q : BusReq) (reg val r r' : Byte) (rest : List BusRsp),
    Running s → s.seq = .closeSeq → s.req = some q → q.op = .wr8 reg val →
    s.bus = ⟨.fail, r⟩ :: ⟨.ok, r'⟩ :: rest →
    ∃ (t : State) (n : Nat), runSteps n s = .next t ∧
      t.st = .closed ∧ t.held = false ∧ t.seq = .idle ∧ t.step = 0 ∧ t.lastErr = .ok ∧ t.req = none ∧
      t.rsp = none ∧ t.bus = rest ∧ t.actual = s.actual ∧ t.addr = s.addr ∧ t.host = s.host ∧
      t.events =
        .rsp (responseWord 2 .ok 0) ::
          .txn { addr7 := s.addr, op := .rel } { status := .ok, rdata := r' } ::
          .txn q { status := .fail, rdata := r } :: s.events ∧
      ∀ k : Nat, k ∉ ([0x00, 0xFA, 0xFB, 0xFC, 0xFD] : List Byte).map (deviceKey q.addr7) →
        Memory.read t.dev k = Memory.read s.dev k

/-- R171, R172: SETFREQ in READY and in range, with every answer OK, whatever byte `m` MODE1 reads as: read
MODE1, the sleep variant, the prescaler, `m` again, the delay, `m | 0xA1`, in this order, none skipped; then
ACTUAL and RESULT are `9 * HZ`. The delay takes the clocks `pre` and `c`, together at least SETTLE_CYCLES; that time
comes as such a list is the model's choice, not a rule of the spec (log entry 7). -/
def Obligations.SetFreqCommand : Prop :=
  ∀ (s : State) (hz : Nat) (m r1 r2 r3 r5 : Byte) (rest : List BusRsp) (pre later : List Nat) (c : Nat),
    s.st = .ready → s.req = none → s.rsp = none → hostQuiet s.host = true → 40 ≤ hz → hz ≤ 1000 →
    s.clk = pre ++ c :: later → pre.sum < Config.settleCycles → Config.settleCycles ≤ pre.sum + c →
    s.bus = ⟨.ok, m⟩ :: ⟨.ok, r1⟩ :: ⟨.ok, r2⟩ :: ⟨.ok, r3⟩ :: ⟨.ok, r5⟩ :: rest →
    ∃ (s1 : State) (n : Nat), exec (.setFreq hz) s = .next s1 ∧
      runSteps n s1 = .next { s with
        seq := .idle
        step := 0
        actual := BitVec.ofNat 14 (9 * hz)
        lastErr := .ok
        old := m
        pre := prescaleByte hz
        hzl := BitVec.ofNat 16 hz
        tmr := 0
        bus := rest
        clk := later
        dev :=
          Memory.write (Memory.write (Memory.write (Memory.write s.dev
            (deviceKey s.addr 0x00) ((m &&& 0x7F) ||| 0x10)) (deviceKey s.addr 0xFE) (prescaleByte hz))
            (deviceKey s.addr 0x00) m) (deviceKey s.addr 0x00) (m ||| 0xA1)
        events :=
          .rsp (responseWord 4 .ok (BitVec.ofNat 16 (9 * hz))) ::
            okTxn s.addr (.wr8 0x00 (m ||| 0xA1)) r5 :: .delay :: okTxn s.addr (.wr8 0x00 m) r3 ::
            okTxn s.addr (.wr8 0xFE (prescaleByte hz)) r2 ::
            okTxn s.addr (.wr8 0x00 ((m &&& 0x7F) ||| 0x10)) r1 :: okTxn s.addr (.rd8 0x00) m :: s.events }

/-- R181: a FAIL in SETFREQ's sequence: no later step, ACTUAL not written, READY, IoFailure; registers outside
MODE1 and PRESCALE are unchanged. -/
def Obligations.SetFreqFailure : Prop :=
  ∀ (s : State) (q : BusReq) (r : Byte) (rest : List BusRsp),
    Running s → s.seq = .freqSeq → s.req = some q →
    ((∃ reg val, q.op = .wr8 reg val) ∨ ∃ reg, q.op = .rd8 reg) → s.bus = ⟨.fail, r⟩ :: rest →
    ∃ t : State, step s = .next t ∧
      t.st = .ready ∧ t.seq = .idle ∧ t.step = 0 ∧ t.req = none ∧ t.lastErr = .ioFailure ∧
      t.rsp = some (responseWord 4 .ioFailure 0) ∧ t.actual = s.actual ∧ t.held = s.held ∧ t.addr = s.addr ∧
      t.old = s.old ∧ t.events = .txn q { status := .fail, rdata := r } :: s.events ∧
      ∀ k : Nat, k ∉ ([0x00, 0xFE] : List Byte).map (deviceKey q.addr7) →
        Memory.read t.dev k = Memory.read s.dev k

/-- R211, R212, R213: SETCH in READY to a channel up to 15 with every answer OK: the four bytes of the tick pair
to the channel's four registers, in the order ON_L, ON_H, OFF_L, OFF_H, and nothing else. -/
def Obligations.SetChCommand : Prop :=
  ∀ (s : State) (ch : Nat) (inv : Bool) (duty : Int) (r0 r1 r2 r3 : Byte) (rest : List BusRsp),
    s.st = .ready → s.req = none → s.rsp = none → hostQuiet s.host = true → ch ≤ 15 →
    s.bus = ⟨.ok, r0⟩ :: ⟨.ok, r1⟩ :: ⟨.ok, r2⟩ :: ⟨.ok, r3⟩ :: rest →
    ∃ (s1 : State) (n : Nat), exec (.setCh ch inv duty) s = .next s1 ∧
      runSteps n s1 = .next { s with
        seq := .idle
        step := 0
        lastErr := .ok
        on := onTick inv duty
        off := offTick inv duty
        base := BitVec.ofNat 8 (6 + 4 * ch)
        bus := rest
        dev :=
          Memory.write (Memory.write (Memory.write (Memory.write s.dev
            (deviceKey s.addr (BitVec.ofNat 8 (6 + 4 * ch))) (lowByte (onTick inv duty)))
            (deviceKey s.addr (BitVec.ofNat 8 (7 + 4 * ch))) (highByte (onTick inv duty)))
            (deviceKey s.addr (BitVec.ofNat 8 (8 + 4 * ch))) (lowByte (offTick inv duty)))
            (deviceKey s.addr (BitVec.ofNat 8 (9 + 4 * ch))) (highByte (offTick inv duty))
        events :=
          .rsp (responseWord 5 .ok 0) ::
            okTxn s.addr (.wr8 (BitVec.ofNat 8 (9 + 4 * ch)) (highByte (offTick inv duty))) r3 ::
            okTxn s.addr (.wr8 (BitVec.ofNat 8 (8 + 4 * ch)) (lowByte (offTick inv duty))) r2 ::
            okTxn s.addr (.wr8 (BitVec.ofNat 8 (7 + 4 * ch)) (highByte (onTick inv duty))) r1 ::
            okTxn s.addr (.wr8 (BitVec.ofNat 8 (6 + 4 * ch)) (lowByte (onTick inv duty))) r0 :: s.events }

/-- R211, R212, R214: SETALL in READY with every answer OK: the four bytes to 0xFA to 0xFD, to no per-channel
register. -/
def Obligations.SetAllCommand : Prop :=
  ∀ (s : State) (inv : Bool) (duty : Int) (r0 r1 r2 r3 : Byte) (rest : List BusRsp),
    s.st = .ready → s.req = none → s.rsp = none → hostQuiet s.host = true →
    s.bus = ⟨.ok, r0⟩ :: ⟨.ok, r1⟩ :: ⟨.ok, r2⟩ :: ⟨.ok, r3⟩ :: rest →
    ∃ (s1 : State) (n : Nat), exec (.setAll inv duty) s = .next s1 ∧
      runSteps n s1 = .next { s with
        seq := .idle
        step := 0
        lastErr := .ok
        on := onTick inv duty
        off := offTick inv duty
        base := 0xFA
        bus := rest
        dev :=
          Memory.write (Memory.write (Memory.write (Memory.write s.dev
            (deviceKey s.addr 0xFA) (lowByte (onTick inv duty)))
            (deviceKey s.addr 0xFB) (highByte (onTick inv duty)))
            (deviceKey s.addr 0xFC) (lowByte (offTick inv duty)))
            (deviceKey s.addr 0xFD) (highByte (offTick inv duty))
        events :=
          .rsp (responseWord 6 .ok 0) ::
            okTxn s.addr (.wr8 0xFD (highByte (offTick inv duty))) r3 ::
            okTxn s.addr (.wr8 0xFC (lowByte (offTick inv duty))) r2 ::
            okTxn s.addr (.wr8 0xFB (highByte (onTick inv duty))) r1 ::
            okTxn s.addr (.wr8 0xFA (lowByte (onTick inv duty))) r0 :: s.events }

/-- R215: a FAIL in a write group: the later writes are not issued, IoFailure, ST stays as it is; registers
outside the group are unchanged. -/
def Obligations.WriteGroupFailure : Prop :=
  ∀ (s : State) (q : BusReq) (reg val r : Byte) (rest : List BusRsp),
    Running s → s.seq = .chanSeq ∨ s.seq = .allSeq → s.st = .ready → s.req = some q → q.op = .wr8 reg val →
    s.bus = ⟨.fail, r⟩ :: rest →
    ∃ t : State, step s = .next t ∧
      t.st = .ready ∧ t.seq = .idle ∧ t.step = 0 ∧ t.req = none ∧ t.lastErr = .ioFailure ∧
      t.rsp = some (responseWord s.seq.op .ioFailure 0) ∧ t.held = s.held ∧ t.actual = s.actual ∧
      t.addr = s.addr ∧ t.on = s.on ∧ t.off = s.off ∧ t.base = s.base ∧
      t.events = .txn q { status := .fail, rdata := r } :: s.events ∧
      ∀ k : Nat, k ∉ [s.base, s.base + 1, s.base + 2, s.base + 3].map (deviceKey q.addr7) →
        Memory.read t.dev k = Memory.read s.dev k

/-! ### The sequencer -/

/-- R244: the request each step of each table issues, addressed to ADDR; SETFREQ's step 4 issues none and leaves
the device registers alone. That HELD stays as it was in the step that issues REL is the model's choice (log entry 2:
HELD falls when REL is answered). -/
def Obligations.MicroSequenceTables : Prop :=
  (∀ (s : State) (k : Nat) (op : BusOp), Running s → s.req = none → s.step.toNat = k →
    ((s.seq = .openSeq ∧ (k, op) ∈
        [(0, .acq), (1, .wr8 0x00 0), (2, .wr8 0xFA 0), (3, .wr8 0xFB 0), (4, .wr8 0xFC 0), (5, .wr8 0xFD 0)]) ∨
      (s.seq = .closeSeq ∧ (k, op) ∈
        [(0, .wr8 0x00 0), (1, .wr8 0xFA 0), (2, .wr8 0xFB 0), (3, .wr8 0xFC 0), (4, .wr8 0xFD 0), (5, .rel)]) ∨
      (s.seq = .resetSeq ∧ (k, op) ∈
        [(0, .wr8 0x00 0), (1, .wr8 0xFA 0), (2, .wr8 0xFB 0), (3, .wr8 0xFC 0), (4, .wr8 0xFD 0)]) ∨
      (s.seq = .freqSeq ∧ (k, op) ∈
        [(0, .rd8 0x00), (1, .wr8 0x00 ((s.old &&& 0x7F) ||| 0x10)), (2, .wr8 0xFE s.pre), (3, .wr8 0x00 s.old),
          (5, .wr8 0x00 (s.old ||| 0xA1))]) ∨
      ((s.seq = .chanSeq ∨ s.seq = .allSeq) ∧ (k, op) ∈
        [(0, .wr8 s.base (lowByte s.on)), (1, .wr8 (s.base + 1) (highByte s.on)),
          (2, .wr8 (s.base + 2) (lowByte s.off)), (3, .wr8 (s.base + 3) (highByte s.off))])) →
    step s = .next { s with req := some { addr7 := s.addr, op := op } }) ∧
    ∀ s : State, Running s → s.req = none → s.seq = .freqSeq → s.step = 4 →
      ∃ t : State, step s = .next t ∧ t.req = none ∧ t.dev = s.dev

/-- R60, R246: with a request outstanding and no answer to come, the block waits and changes nothing, for ever and
with `cmd_ready` 0 (U11). -/
def Obligations.WaitsForTheProvider : Prop :=
  ∀ (s : State) (q : BusReq), Running s → s.req = some q → s.bus = [] →
    step s = .next s ∧ s.cmdReady = false ∧ ∀ n : Nat, runSteps n s = .next s

/-- R37, R246: the delay ends only when the environment lets it: if the clocks to come do not reach TMR, the block stays
in SETFREQ's step 4 for ever, with `cmd_ready` 0 and no request (U11). That time comes as a list of clocks is log entry
7. -/
def Obligations.DelayMayNeverEnd : Prop :=
  ∀ s : State, Running s → s.seq = .freqSeq → s.step = 4 → s.req = none → s.clk.sum < s.tmr ∨ s.clk = [] →
    ∀ n : Nat, ∃ t : State, runSteps n s = .next t ∧ t.seq = .freqSeq ∧ t.step = 4 ∧ t.req = none ∧
      t.events = s.events ∧ t.cmdReady = false

/-- R110: the statuses the provider may give each kind of request; any other is refused (U9), and only those. -/
def Obligations.ProviderContract : Prop :=
  ∀ (s : State) (q : BusReq) (a : BusRsp) (rest : List BusRsp),
    Running s → s.req = some q → s.bus = a :: rest →
    (step s = .refused .providerContract ↔
      (q.op = .acq ∧ a.status = .fail) ∨ (q.op = .rel ∧ a.status ≠ .ok) ∨
        (((∃ reg val, q.op = .wr8 reg val) ∨ ∃ reg, q.op = .rd8 reg) ∧
          (a.status = .notFound ∨ a.status = .inUse)))

/-- R61, R62: an OK to WR8 has written the register; an OK to RD8 loads OLD with the byte read, any of the 256
(R66, U7), and stores nothing. -/
def Obligations.AnsweredTransactions : Prop :=
  ∀ (s t : State) (q : BusReq) (r : Byte) (rest : List BusRsp),
    Running s → s.req = some q → s.bus = ⟨.ok, r⟩ :: rest → step s = .next t →
    t.bus = rest ∧ t.events = .txn q { status := .ok, rdata := r } :: s.events ∧ t.req = none ∧
      (∀ reg val, q.op = .wr8 reg val → t.devRead q.addr7 reg = some val ∧ t.old = s.old) ∧
      (∀ reg, q.op = .rd8 reg → t.old = r ∧ ∀ k : Nat, Memory.read t.dev k = Memory.read s.dev k)

/-- R65, R61: a step stores to no device register but those `storedKeys` computes: the register of a WR8 answered
OK, or the command's group after a FAIL. -/
def Obligations.DeviceFrame : Prop :=
  ∀ (s t : State) (k : Nat), step s = .next t → k ∉ storedKeys s → Memory.read t.dev k = Memory.read s.dev k

/-- What a step of the sequencer leaves unchanged (R20 "written by", R25, R26): ADDR, HZL, PRE, ON, OFF and BASE
always; OLD but for a read answered OK; HELD but for the answer to ACQ or REL; TMR outside SETFREQ; ACTUAL but at
SETFREQ's last step; LASTERR, and the response port, but where the step ends the command, which it does with a
response carrying the OP of the sequence and LASTERR (R31, R108); the clocks to come but in the delay. That HELD stays
as it was in the step that issues REL is the model's choice (log entry 2: HELD falls when REL is answered). -/
def Obligations.SequencerFrame : Prop :=
  ∀ s t : State, Running s → step s = .next t →
    t.addr = s.addr ∧ t.hzl = s.hzl ∧ t.pre = s.pre ∧ t.on = s.on ∧ t.off = s.off ∧ t.base = s.base ∧
      t.host = s.host ∧
      ((∀ q, s.req = some q → ∀ reg, q.op ≠ .rd8 reg) → t.old = s.old) ∧
      ((∀ q, s.req = some q → q.op ≠ .acq ∧ q.op ≠ .rel) → t.held = s.held) ∧
      (s.seq ≠ .freqSeq → t.tmr = s.tmr) ∧
      (¬(s.seq = .freqSeq ∧ s.step = 4 ∧ s.req = none) → t.clk = s.clk) ∧
      (¬(s.seq = .freqSeq ∧ s.step = 5) → t.actual = s.actual) ∧
      (t.seq ≠ .idle → t.lastErr = s.lastErr ∧ t.rsp = none) ∧
      (t.seq = .idle → ∃ r, t.rsp = some (responseWord s.seq.op t.lastErr r))

/-- R33: ACTUAL is written by a successful SETFREQ, with `9 * HZL`, and by hardware reset, with 0, and by nothing
else. -/
def Obligations.ActualWrittenOnlyOnSuccess : Prop :=
  ∀ s t : State, step s = .next t →
    t.actual = s.actual ∨
      (t.actual = 0 ∧ ∃ later, s.host = .rst :: later) ∨
      (s.seq = .freqSeq ∧ s.step = 5 ∧ t.actual = BitVec.ofNat 14 (9 * s.hzl.toNat) ∧ t.lastErr = .ok ∧
        ∃ q a rest, s.req = some q ∧ s.bus = a :: rest ∧ a.status = .ok)

/-- R290, R291: SETTLE_CYCLES meets its bound; an OK to step 3 loads TMR with it; from then on TMR is counted down
by the clocks that pass, with no transaction and nothing accepted, and the delay ends when it reaches 0, which is in
the step in which the clocks add up to it, and no earlier. That time comes as a list of clocks, and when TMR is loaded,
is log entry 7. -/
def Obligations.SettleDelay : Prop :=
  5 * Config.clkHz ≤ 1000 * Config.settleCycles ∧
    (∀ (s t : State) (q : BusReq) (reg val r : Byte) (rest : List BusRsp),
      Running s → s.seq = .freqSeq → s.step = 3 → s.req = some q → q.op = .wr8 reg val →
      s.bus = ⟨.ok, r⟩ :: rest → step s = .next t → t.step = 4 ∧ t.req = none ∧ t.tmr = Config.settleCycles) ∧
    (∀ (s : State) (c : Nat) (later : List Nat), Running s → s.seq = .freqSeq → s.step = 4 → s.req = none →
      s.clk = c :: later →
      (c < s.tmr → step s = .next { s with tmr := s.tmr - c, clk := later }) ∧
        (s.tmr ≤ c → step s = .next { s with tmr := 0, clk := later, step := 5, events := .delay :: s.events })) ∧
    ∀ (s : State) (pre later : List Nat) (c : Nat), Running s → s.seq = .freqSeq → s.step = 4 → s.req = none →
      s.clk = pre ++ c :: later → pre.sum < s.tmr → s.tmr ≤ pre.sum + c →
      (∀ k : Nat, k ≤ pre.length →
        runSteps k s = .next { s with tmr := s.tmr - (pre.take k).sum, clk := pre.drop k ++ c :: later }) ∧
        runSteps (pre.length + 1) s =
          .next { s with tmr := 0, clk := later, step := 5, events := .delay :: s.events }

/-- R246: every step of a running sequence to which the provider gives an allowed answer, and in the delay a clock
passes, moves it forward, so that every sequence ends if the environment goes on answering and time goes on. -/
def Obligations.SequencesMoveForward : Prop :=
  ∀ s : State, Inv s → Running s → answerReady s = true → timePasses s = true →
    ∃ t : State, step s = .next t ∧ distance t < distance s

/-- R81, R172: the byte read from MODE1 decides the data of MODE1 writes only. With any other OLD the step's table entry
is the same, or both are writes to MODE1. And two states that agree but for what read bytes may decide (OLD, the bytes
still to be answered, the data of MODE1 writes) step to two such states again, or stop alike: the addresses, the count
and the order of the requests are the same. -/
def Obligations.ReadByteDecidesDataOnly : Prop :=
  (∀ (s : State) (x : Byte),
      ({ s with old := x } : State).micro = s.micro ∨
        ∃ v v' : Byte, s.micro = some (.bus (.wr8 0x00 v)) ∧
          ({ s with old := x } : State).micro = some (.bus (.wr8 0x00 v'))) ∧
    ∀ s s' : State, AlikeButForReadBytes s s' →
      (∀ t, step s = .next t → ∃ t', step s' = .next t' ∧ AlikeButForReadBytes t t') ∧
        (∀ f, step s = .fault f → step s' = .fault f) ∧ ∀ x, step s = .refused x → step s' = .refused x

/-! ### Ports, status registers and hardware reset -/

/-- R100, R108: the block is ready for a command exactly when SEQ is 0 and no response is pending; a pending
response is handed over unaltered by the next step, whatever it is and whatever the host presents, and a presented
command waits; a word is accepted only when the block is ready. That a response stays pending for one step is log
entry 2; that a status read goes before it, leaving it pending, is log entry 8. -/
def Obligations.ResponsePort : Prop :=
  (∀ s : State, s.cmdReady = true ↔ s.seq = .idle ∧ s.rsp = none) ∧
    (∀ (s : State) (r : Word), s.rsp = some r → (∀ n later, s.host ≠ .readSR n :: later) →
      step s = .next { s with rsp := none, events := .rsp r :: s.events }) ∧
    (∀ (s : State) (r : Word) (n : BitVec 3) (later : List HostAct),
      s.rsp = some r → s.host = .readSR n :: later →
      step s = .next { s with host := later, events := .readSR n (s.statusRegister n) :: s.events }) ∧
    ∀ (s t : State) (w : Word), step s = .next t → t.events = .cmd w :: s.events →
      s.cmdReady = true ∧ ∃ later, s.host = .cmd w :: later

/-- R31: LASTERR changes only at a command's completion, when a response carrying its ERR number becomes pending,
or by hardware reset, to OK; and whenever a response becomes pending, LASTERR is its ERR. -/
def Obligations.LastErrorWrittenAtCompletion : Prop :=
  ∀ s t : State, step s = .next t →
    (t.lastErr = s.lastErr ∨ (t.lastErr = .ok ∧ ∃ later, s.host = .rst :: later) ∨
      (s.rsp = none ∧ t.seq = .idle ∧ t.step = 0 ∧ ∃ op r, t.rsp = some (responseWord op t.lastErr r))) ∧
      ∀ w : Word, s.rsp = none → t.rsp = some w → ∃ op r, w = responseWord op t.lastErr r

/-- R110: the channel port's signals for each kind of request, with 0 where the kind does not use one, and the
numbers of the provider's statuses. -/
def Obligations.ChannelPortSignals : Prop :=
  ∀ (a : BusAddr) (reg val : Byte),
    (({ addr7 := a, op := .acq } : BusReq).kind = 0 ∧ ({ addr7 := a, op := .acq } : BusReq).reg = 0 ∧
        ({ addr7 := a, op := .acq } : BusReq).wdata = 0) ∧
      (({ addr7 := a, op := .rel } : BusReq).kind = 1 ∧ ({ addr7 := a, op := .rel } : BusReq).reg = 0 ∧
        ({ addr7 := a, op := .rel } : BusReq).wdata = 0) ∧
      (({ addr7 := a, op := .wr8 reg val } : BusReq).kind = 2 ∧
        ({ addr7 := a, op := .wr8 reg val } : BusReq).reg = reg ∧
        ({ addr7 := a, op := .wr8 reg val } : BusReq).wdata = val) ∧
      (({ addr7 := a, op := .rd8 reg } : BusReq).kind = 3 ∧ ({ addr7 := a, op := .rd8 reg } : BusReq).reg = reg ∧
        ({ addr7 := a, op := .rd8 reg } : BusReq).wdata = 0) ∧
      BusStatus.ok.code = 0 ∧ BusStatus.fail.code = 1 ∧ BusStatus.notFound.code = 2 ∧ BusStatus.inUse.code = 3

/-- R108, R271: the fields of a response word; the ERR number of each error kind, so that no two kinds, the two
acquire failures of OPEN among them (R142, R274), answer alike; and OP is the command word's. -/
def Obligations.ResponseWordFields : Prop :=
  (∀ (op : BitVec 4) (e : ErrKind) (r : BitVec 16),
      (responseWord op e r).extractLsb' 0 4 = e.code ∧ (responseWord op e r).extractLsb' 4 4 = op ∧
        (responseWord op e r).extractLsb' 8 16 = r ∧ (responseWord op e r).extractLsb' 24 8 = 0) ∧
    (ErrKind.ok.code = 0 ∧ ErrKind.deviceUnavailable.code = 1 ∧ ErrKind.deviceBusy.code = 2 ∧
      ErrKind.outOfRange.code = 3 ∧ ErrKind.ioFailure.code = 4 ∧ ErrKind.closed.code = 5 ∧
      ErrKind.badState.code = 6 ∧ ErrKind.illegalCommand.code = 7) ∧
    (∀ (op op' : BitVec 4) (e e' : ErrKind) (r r' : BitVec 16),
      responseWord op e r = responseWord op' e' r' → e = e') ∧
    ∀ (w : Word) (i : Instr), decode w = .ok i → opcodeOf i = opField w

/-- R32: the five status registers, field by field, with R22's numbers for ST and R28's BUSY; `sr_sel` 5 to 7 read 0
(R100); reading one, in any state, changes nothing of the block. That a read takes a step in which the sequencer does
not move and a pending response stays pending is the model's choice (log entry 8). -/
def Obligations.StatusRegisters : Prop :=
  ∀ s : State,
    (s.statusRegister 0).extractLsb' 0 3 = s.st.code ∧
      (s.statusRegister 0).extractLsb' 3 1 = BitVec.ofBool (s.seq != .idle) ∧
      (s.busy = true ↔ s.seq ≠ .idle) ∧
      (s.statusRegister 0).extractLsb' 4 1 = BitVec.ofBool s.held ∧
      (s.statusRegister 0).extractLsb' 5 4 = s.lastErr.code ∧
      (s.statusRegister 0).extractLsb' 9 23 = 0 ∧
      (s.statusRegister 1).extractLsb' 0 14 = s.actual ∧ (s.statusRegister 1).extractLsb' 14 18 = 0 ∧
      s.statusRegister 2 = 40 ∧ s.statusRegister 3 = 1000 ∧ s.statusRegister 4 = 16 ∧
      (Lifecycle.unopened.code = 0 ∧ Lifecycle.opening.code = 1 ∧ Lifecycle.ready.code = 2 ∧
        Lifecycle.reconfiguring.code = 3 ∧ Lifecycle.closed.code = 4) ∧
      (∀ n : BitVec 3, 5 ≤ n.toNat → s.statusRegister n = 0) ∧
      ∀ (n : BitVec 3) (later : List HostAct), s.host = .readSR n :: later →
        step s = .next { s with host := later, events := .readSR n (s.statusRegister n) :: s.events }

/-- R39, R310, R311: hardware reset, at power-on and of an idle block without a handle: the six values; no
transaction, the chip untouched. The latches R39 leaves unspecified are not mentioned. That nothing is pending on the
two ports at power-on is the model's (log entry 2, read from R311). -/
def Obligations.HardwareReset : Prop :=
  (State.reset.st = .unopened ∧ State.reset.seq = .idle ∧ State.reset.step = 0 ∧ State.reset.held = false ∧
      State.reset.actual = 0 ∧ State.reset.lastErr = .ok ∧ State.reset.req = none ∧ State.reset.rsp = none) ∧
    ∀ (s : State) (later : List HostAct),
      s.rsp = none → s.seq = .idle → s.held = false → s.host = .rst :: later →
      ∃ t : State, step s = .next t ∧
        t.st = .unopened ∧ t.seq = .idle ∧ t.step = 0 ∧ t.held = false ∧ t.actual = 0 ∧ t.lastErr = .ok ∧
        t.dev = s.dev ∧ t.req = s.req ∧ t.rsp = none ∧ t.bus = s.bus ∧ t.clk = s.clk ∧ t.host = later ∧
        t.events = .hwReset :: s.events

/-- R312: hardware reset while a sequence runs or a handle is held is refused. -/
def Obligations.HardwareResetRefused : Prop :=
  ∀ (s : State) (later : List HostAct),
    s.rsp = none → s.seq ≠ .idle ∨ s.held = true → s.host = .rst :: later →
    step s = .refused .resetOutsideIdle

/-! ### The quantizer and the encoder -/

/-- R173: the byte is `floor(x + 1/2)` clamped to a byte, with `x = 25000000 / 4096 / adjusted - 1` and
`adjusted = (9/10) * hz`, in exact arithmetic, for every whole frequency; so is the model's rational reading. -/
def Obligations.QuantizerMeetsFormula : Prop :=
  ∀ hz : Nat, 1 ≤ hz →
    ((prescaleByte hz).toNat : Int) =
      max 0 (min 255 ⌊(25000000 : ℚ) / 4096 / ((9 / 10 : ℚ) * (hz : ℚ)) - 1 + 1 / 2⌋) ∧
      ((prescaleByte hz).toNat : Int) = prescaleExact (hz : ℚ)

/-- R179 (its ranges): on the accepted frequencies the byte lies in 6..169, is non-increasing, and the clamp does
not act; `9 * hz` lies in 360..9000. -/
def Obligations.QuantizerRanges : Prop :=
  ∀ hz : Nat, 40 ≤ hz → hz ≤ 1000 →
    6 ≤ (prescaleByte hz).toNat ∧ (prescaleByte hz).toNat ≤ 169 ∧
      ((prescaleByte hz).toNat : Int) = prescaleRaw hz ∧ 360 ≤ adj hz ∧ adj hz ≤ 9000 ∧
      ∀ hz' : Nat, hz ≤ hz' → hz' ≤ 1000 → (prescaleByte hz').toNat ≤ (prescaleByte hz).toNat

/-- R176: at whole frequencies the value whose floor is taken is never an integer, so no tie occurs; and the
integer form's quotient leaves a remainder: it lies strictly between two neighbouring multiples. -/
def Obligations.QuantizerHasNoTies : Prop :=
  ∀ hz : Nat, 1 ≤ hz →
    (∀ k : Int, roundingArg (hz : ℚ) ≠ (k : ℚ)) ∧
      (prescaleRaw hz : ℚ) < roundingArg (hz : ℚ) ∧ roundingArg (hz : ℚ) < (prescaleRaw hz : ℚ) + 1

/-- R202, R203, R216: the normalization and the translation table, row for row. -/
def Obligations.EncoderTable : Prop :=
  (∀ d : Int, (d < 0 → normDuty d = 0) ∧ (4096 < d → normDuty d = 4095) ∧ (0 ≤ d → d ≤ 4096 → (normDuty d : Int) = d)) ∧
    enc false 4095 = (4095, 0) ∧ enc false 4096 = (4096, 0) ∧ enc false 0 = (0, 4095) ∧
    (∀ v : Nat, 1 ≤ v → v ≤ 4094 → enc false v = (0, v)) ∧
    enc true 0 = (4095, 0) ∧ enc true 4095 = (0, 4095) ∧ enc true 4096 = (0, 4096) ∧
    (∀ v : Nat, 1 ≤ v → v ≤ 4094 → enc true v = (0, 4095 - v)) ∧
    ∀ (inv : Bool) (d : Int),
      (onTick inv d).toNat = (enc inv (normDuty d)).1 ∧ (offTick inv d).toNat = (enc inv (normDuty d)).2

/-- R201: on non-negative rational duty cycles, what a caller presents after truncation is normalized as D00's
order gives it, outside (4096, 4097) (R105), and as the model's rational reading has it. -/
def Obligations.TruncatedDutyNormalizes : Prop :=
  ∀ r : ℚ, 0 ≤ r → ¬(4096 < r ∧ r < 4097) →
    (normDuty (truncRat r) : Int) = (if 4096 < r then 4095 else ⌊r⌋) ∧ (normDuty (truncRat r) : Int) = normExact r

/-- R204: inversion is the complement for 0..4095, and the exchange of the pair for 4096. -/
def Obligations.PolarityLaw : Prop :=
  (∀ v : Nat, v ≤ 4095 → enc true v = enc false (4095 - v)) ∧
    enc true 4096 = ((enc false 4096).2, (enc false 4096).1)

/-- R207: the pairs the encoder produces are (0, k) for k in 1..4096, (4095, 0) and (4096, 0): 4098 of them. -/
def Obligations.ProducedPairs : Prop :=
  (∀ on off : Nat, (∃ (inv : Bool) (d : Int), enc inv (normDuty d) = (on, off)) ↔
      (on = 0 ∧ 1 ≤ off ∧ off ≤ 4096) ∨ (on = 4095 ∧ off = 0) ∨ (on = 4096 ∧ off = 0)) ∧
    {p : Nat × Nat | ∃ (inv : Bool) (d : Int), enc inv (normDuty d) = p}.ncard = 4098

/-- R73, R209: the byte split, low byte `value & 0xFF`, high byte `value >> 8`; bits 7 to 5 of the high byte
are 0. -/
def Obligations.ByteSplit : Prop :=
  ∀ t : Tick, (lowByte t).toNat = t.toNat % 256 ∧ (highByte t).toNat = t.toNat / 256 ∧
    (highByte t).toNat < 32

/-- R68, R70: a channel's registers are at 0x06 + 4n to 0x09 + 4n; no address overflows 8 bits, and the groups of
two channels share no register. -/
def Obligations.ChannelAddresses : Prop :=
  ∀ n : Nat, n ≤ 15 →
    (channelBase n).toNat = 6 + 4 * n ∧ (channelBase n + 1).toNat = 7 + 4 * n ∧
      (channelBase n + 2).toNat = 8 + 4 * n ∧ (channelBase n + 3).toNat = 9 + 4 * n ∧ 9 + 4 * n ≤ 0x45 ∧
      ∀ m : Nat, m ≤ 15 → m ≠ n →
        ∀ j k : Byte, j.toNat ≤ 3 → k.toNat ≤ 3 → channelBase n + j ≠ channelBase m + k

/-! ### Whole-machine rules -/

/-- Reset meets the invariant. -/
def Obligations.ResetMeetsInvariant : Prop := Inv State.reset

/-- Every step keeps the invariant: ST agrees with the running sequence, STEP is in its table, HELD is held
exactly where R30 says, the outstanding request is the table's, ACTUAL and the latches hold what their commands
gave them, the device list is canonical, handles (R148) and responses (R108) are accounted for. That HELD is 1 while a
REL is unanswered (log entry 2) and the device list with its form (log entry 5) are the model's choices. -/
def Obligations.StepKeepsInvariant : Prop :=
  ∀ s t : State, Inv s → step s = .next t → Inv t

/-- Every step keeps the device register list in its canonical form: strictly rising keys. The list and its form are
the model's choice, not a rule of the spec (log entry 5). -/
def Obligations.StepKeepsDeviceListCanonical : Prop :=
  ∀ s t : State, Memory.wf s.dev = true → step s = .next t → Memory.wf t.dev = true

/-- From a state that meets the invariant no step faults, and a step is refused only where the spec asks for it:
`rst` while busy or holding a handle (R312), or an answer outside the provider's contract (R110). -/
def Obligations.StopsOnlyWhereTheSpecRefuses : Prop :=
  ∀ s : State, Inv s →
    (∀ f : Fault, step s ≠ .fault f) ∧
      ∀ x : Refusal, step s = .refused x →
        (x = .resetOutsideIdle ∧ (∃ later, s.host = .rst :: later) ∧ (s.seq ≠ .idle ∨ s.held = true)) ∨
          (x = .providerContract ∧ ∃ q a rest, s.req = some q ∧ s.bus = a :: rest ∧
            statusAllowed q.op a.status = false)

/-- R247: the transitions of ST, each with its event; no other exists. -/
def Obligations.LifecycleTransitions : Prop :=
  ∀ s t : State, Inv s → step s = .next t → t.st ≠ s.st →
    (t.st = .unopened ∧ ∃ later, s.host = .rst :: later) ∨
      (s.st = .unopened ∧ t.st = .opening ∧
        ∃ w later a, s.host = .cmd w :: later ∧ decode w = .ok (.openCmd a)) ∨
      (s.st = .opening ∧ t.st = .unopened ∧ ∃ q a rest, s.req = some q ∧ s.bus = a :: rest ∧
        ((q.op = .acq ∧ (a.status = .notFound ∨ a.status = .inUse)) ∨ q.op = .rel)) ∨
      (s.st = .opening ∧ t.st = .ready ∧ s.step = 5 ∧
        ∃ q a rest, s.req = some q ∧ s.bus = a :: rest ∧ a.status = .ok) ∨
      (s.st = .ready ∧ t.st = .reconfiguring ∧
        ∃ w later hz, s.host = .cmd w :: later ∧ decode w = .ok (.setFreq hz) ∧ 40 ≤ hz ∧ hz ≤ 1000) ∨
      (s.st = .reconfiguring ∧ t.st = .ready ∧ ∃ q a rest, s.req = some q ∧ s.bus = a :: rest ∧
        ((s.step = 5 ∧ a.status = .ok) ∨ a.status = .fail)) ∨
      (s.st = .ready ∧ t.st = .closed ∧ s.seq = .closeSeq ∧ s.step = 5 ∧
        ∃ q a rest, s.req = some q ∧ q.op = .rel ∧ s.bus = a :: rest)

/-- R150: a closed block stays closed until hardware reset, and makes no request. -/
def Obligations.ClosedIsFinal : Prop :=
  ∀ s t : State, Inv s → s.st = .closed → step s = .next t →
    t.req = none ∧ t.held = false ∧
      (t.st = .closed ∨ (t.st = .unopened ∧ ∃ later, s.host = .rst :: later))

/-- R61 to R64, R71: which requests go out: ACQ only by OPEN and without a handle, WR8, RD8 and REL only with one;
RD8 only of MODE1, by SETFREQ; WR8 only to MODE1, LEDn, ALL_LED and PRESCALE; always addressed to ADDR. -/
def Obligations.RequestsTheBlockMakes : Prop :=
  ∀ (s t : State) (q : BusReq), Inv s → step s = .next t → t.req = some q → s.req ≠ some q →
    q.addr7 = s.addr ∧
      (q.op = .acq → s.held = false ∧ s.seq = .openSeq) ∧
      (q.op ≠ .acq → s.held = true) ∧
      (q.op = .rel → s.seq = .closeSeq ∨ s.seq = .openSeq) ∧
      (∀ reg, q.op = .rd8 reg → reg = 0x00 ∧ s.seq = .freqSeq) ∧
      ∀ reg val, q.op = .wr8 reg val →
        reg = 0x00 ∨ (0x06 ≤ reg.toNat ∧ reg.toNat ≤ 0x45) ∨ (0xFA ≤ reg.toNat ∧ reg.toNat ≤ 0xFE)
end

