-- ==== Sys2Proof/Laws/Config.lean ====
section
/-! SUPPORT. What can be said of the open parameters. -/

namespace Sys2Proof.Config

/-- The settle delay is at least one count (R291). -/
theorem settleCycles_pos : 1 ≤ settleCycles := by
  unfold settleCycles clkHz
  generalize settleSlack = d
  generalize clkHzPred = c
  omega

end Sys2Proof.Config
end

