-- ==== Sys2Proof/Laws/Encoding.lean ====
section
/-! SUPPORT. A command word as its five fields, and each row's match and mask read as conditions on them. -/

namespace Sys2Proof

theorem append_inj {n m : Nat} {x₁ x₂ : BitVec n} {y₁ y₂ : BitVec m} :
    x₁ ++ y₁ = x₂ ++ y₂ ↔ x₁ = x₂ ∧ y₁ = y₂ := by
  refine ⟨fun h => ⟨BitVec.eq_of_getElem_eq fun i hi => ?_, BitVec.eq_of_getElem_eq fun i hi => ?_⟩, ?_⟩
  · have := congrArg (fun z => z.getLsbD (m + i)) h
    simpa [BitVec.getLsbD_append, ← BitVec.getLsbD_eq_getElem] using this
  · have := congrArg (fun z => z.getLsbD i) h
    simpa [BitVec.getLsbD_append, hi, ← BitVec.getLsbD_eq_getElem] using this
  · rintro ⟨rfl, rfl⟩
    rfl

/-- Words put together from five fields are equal exactly when the fields are. -/
theorem fields_inj {a a' : BitVec 4} {b b' : BitVec 8} {c c' : BitVec 3} {d d' : BitVec 1} {e e' : BitVec 16} :
    ((a ++ b ++ c ++ d ++ e : Word) = a' ++ b' ++ c' ++ d' ++ e') ↔
      a = a' ∧ b = b' ∧ c = c' ∧ d = d' ∧ e = e' := by
  refine ⟨fun h => ?_, ?_⟩
  · obtain ⟨h, he⟩ := (append_inj (n := 4 + 8 + 3 + 1) (m := 16)).1 h
    obtain ⟨h, hd⟩ := append_inj.1 h
    obtain ⟨h, hc⟩ := append_inj.1 h
    obtain ⟨ha, hb⟩ := append_inj.1 h
    exact ⟨ha, hb, hc, hd, he⟩
  · rintro ⟨rfl, rfl, rfl, rfl, rfl⟩
    rfl

/-- R101: the word is its fields, most significant first. -/
theorem word_fields (w : Word) : w = opField w ++ chField w ++ zeroField w ++ invField w ++ immField w := by
  apply BitVec.eq_of_getElem_eq
  intro i hi
  rw [BitVec.getElem_append (n := 4 + 8 + 3 + 1) (m := 16) hi]
  simp only [opField, chField, zeroField, invField, immField, BitVec.getElem_append, BitVec.getElem_extractLsb']
  rw [← BitVec.getLsbD_eq_getElem]
  repeat' split
  all_goals congr 1; omega

theorem packWord_fields (op : BitVec 4) (ch : BitVec 8) (inv : Bool) (imm : BitVec 16) :
    op = opField (packWord op ch inv imm) ∧ ch = chField (packWord op ch inv imm) ∧
      0 = zeroField (packWord op ch inv imm) ∧ BitVec.ofBool inv = invField (packWord op ch inv imm) ∧
      imm = immField (packWord op ch inv imm) :=
  fields_inj.1 (word_fields (packWord op ch inv imm))

@[simp] theorem opField_packWord (op : BitVec 4) (ch : BitVec 8) (inv : Bool) (imm : BitVec 16) :
    opField (packWord op ch inv imm) = op := (packWord_fields op ch inv imm).1.symm

@[simp] theorem chField_packWord (op : BitVec 4) (ch : BitVec 8) (inv : Bool) (imm : BitVec 16) :
    chField (packWord op ch inv imm) = ch := (packWord_fields op ch inv imm).2.1.symm

@[simp] theorem zeroField_packWord (op : BitVec 4) (ch : BitVec 8) (inv : Bool) (imm : BitVec 16) :
    zeroField (packWord op ch inv imm) = 0 := (packWord_fields op ch inv imm).2.2.1.symm

@[simp] theorem invField_packWord (op : BitVec 4) (ch : BitVec 8) (inv : Bool) (imm : BitVec 16) :
    invField (packWord op ch inv imm) = BitVec.ofBool inv := (packWord_fields op ch inv imm).2.2.2.1.symm

@[simp] theorem immField_packWord (op : BitVec 4) (ch : BitVec 8) (inv : Bool) (imm : BitVec 16) :
    immField (packWord op ch inv imm) = imm := (packWord_fields op ch inv imm).2.2.2.2.symm

/-- Masking a word masks its fields. -/
theorem and_eq_iff_fields (w : Word) (mo po : BitVec 4) (mc pc : BitVec 8) (mz pz : BitVec 3) (mi pi : BitVec 1)
    (mm pm : BitVec 16) :
    (w &&& (mo ++ mc ++ mz ++ mi ++ mm : Word) = po ++ pc ++ pz ++ pi ++ pm) ↔
      opField w &&& mo = po ∧ chField w &&& mc = pc ∧ zeroField w &&& mz = pz ∧ invField w &&& mi = pi ∧
        immField w &&& mm = pm := by
  have h : (w &&& (mo ++ mc ++ mz ++ mi ++ mm : Word)) =
      (opField w &&& mo) ++ (chField w &&& mc) ++ (zeroField w &&& mz) ++ (invField w &&& mi) ++
        (immField w &&& mm) := by
    conv_lhs => rw [word_fields w]
    rw [← BitVec.and_append, ← BitVec.and_append, ← BitVec.and_append]
    exact BitVec.and_append (w := 4 + 8 + 3 + 1) (v := 16)
  rw [h]
  exact fields_inj

theorem and_allOnes' {n : Nat} (x m : BitVec n) (h : m = BitVec.allOnes n) : x &&& m = x := by
  rw [h, BitVec.and_allOnes]

/-- OPEN's row (R103) as conditions on the fields. -/
theorem matches_open (w : Word) :
    w &&& 0xFFFFFF80 = 0x10000000 ↔
      opField w = 1 ∧ chField w = 0 ∧ zeroField w = 0 ∧ invField w = 0 ∧ immField w &&& 0xFF80 = 0 := by
  have h := and_eq_iff_fields w 0xF 1 0xFF 0 7 0 1 0 0xFF80 0
  rwa [and_allOnes' (opField w) 0xF (by decide), and_allOnes' (chField w) 0xFF (by decide),
    and_allOnes' (zeroField w) 7 (by decide), and_allOnes' (invField w) 1 (by decide)] at h

/-- The rows without operands (R103). -/
theorem matches_zero (w : Word) (op : BitVec 4) :
    w &&& 0xFFFFFFFF = op ++ (0 : BitVec 8) ++ (0 : BitVec 3) ++ (0 : BitVec 1) ++ (0 : BitVec 16) ↔
      opField w = op ∧ chField w = 0 ∧ zeroField w = 0 ∧ invField w = 0 ∧ immField w = 0 := by
  have h := and_eq_iff_fields w 0xF op 0xFF 0 7 0 1 0 0xFFFF 0
  rwa [and_allOnes' (opField w) 0xF (by decide), and_allOnes' (chField w) 0xFF (by decide),
    and_allOnes' (zeroField w) 7 (by decide), and_allOnes' (invField w) 1 (by decide),
    and_allOnes' (immField w) 0xFFFF (by decide)] at h

theorem matches_close (w : Word) :
    w &&& 0xFFFFFFFF = 0x20000000 ↔
      opField w = 2 ∧ chField w = 0 ∧ zeroField w = 0 ∧ invField w = 0 ∧ immField w = 0 :=
  matches_zero w 2

theorem matches_reset (w : Word) :
    w &&& 0xFFFFFFFF = 0x30000000 ↔
      opField w = 3 ∧ chField w = 0 ∧ zeroField w = 0 ∧ invField w = 0 ∧ immField w = 0 :=
  matches_zero w 3

/-- SETFREQ's row. -/
theorem matches_setFreq (w : Word) :
    w &&& 0xFFFF0000 = 0x40000000 ↔ opField w = 4 ∧ chField w = 0 ∧ zeroField w = 0 ∧ invField w = 0 := by
  have h := and_eq_iff_fields w 0xF 4 0xFF 0 7 0 1 0 0 0
  rw [and_allOnes' (opField w) 0xF (by decide), and_allOnes' (chField w) 0xFF (by decide),
    and_allOnes' (zeroField w) 7 (by decide), and_allOnes' (invField w) 1 (by decide)] at h
  simpa using h

/-- SETCH's row. -/
theorem matches_setCh (w : Word) : w &&& 0xF00E0000 = 0x50000000 ↔ opField w = 5 ∧ zeroField w = 0 := by
  have h := and_eq_iff_fields w 0xF 5 0 0 7 0 0 0 0 0
  rw [and_allOnes' (opField w) 0xF (by decide), and_allOnes' (zeroField w) 7 (by decide)] at h
  simpa using h

/-- SETALL's row. -/
theorem matches_setAll (w : Word) :
    w &&& 0xFFFE0000 = 0x60000000 ↔ opField w = 6 ∧ chField w = 0 ∧ zeroField w = 0 := by
  have h := and_eq_iff_fields w 0xF 6 0xFF 0 7 0 0 0 0 0
  rw [and_allOnes' (opField w) 0xF (by decide), and_allOnes' (chField w) 0xFF (by decide),
    and_allOnes' (zeroField w) 7 (by decide)] at h
  simpa using h

/-- A 7-bit address leaves `IMM16[15:7]` zero (R102). -/
theorem addr_high_zero {a : Nat} (h : a < 128) : BitVec.ofNat 16 a &&& 0xFF80#16 = 0#16 := by
  interval_cases a <;> rfl

end Sys2Proof
end

