-- ==== Sys2Proof/Laws/Operands.lean ====
section
/-! SUPPORT. What the operand checks and the encoder's inputs amount to. -/

namespace Sys2Proof.Machine

/-- R177. -/
theorem inRange_iff (hz : Nat) : inRange hz = true ↔ 40 ≤ hz ∧ hz ≤ 1000 := by
  simp [inRange]

/-- R210. -/
theorem channelValid_iff (ch : Nat) : channelValid ch = true ↔ ch ≤ 15 := by
  simp [channelValid, Nat.lt_succ_iff]

/-- R202: the normalized duty is at most the sentinel. -/
theorem normDuty_le (d : Int) : normDuty d ≤ 4096 := by
  simp only [normDuty, Config.dutySentinel, Config.dutyMax]
  split
  · omega
  · split <;> omega

/-- R211: the base as one number. -/
theorem channelBase_eq (ch : Nat) : channelBase ch = BitVec.ofNat 8 (6 + 4 * ch) := by
  simp only [channelBase, Config.regLed0]
  apply BitVec.eq_of_toNat_eq
  simp

end Sys2Proof.Machine
end

