-- ==== Sys2Proof/Laws/State.lean ====
section
/-! SUPPORT. One lemma per field per named update of State. -/

namespace Sys2Proof.Machine

/-! ### `State.log` -/

@[simp] theorem State.log_st (s : State) (e : Event) : (s.log e).st = s.st := rfl
@[simp] theorem State.log_seq (s : State) (e : Event) : (s.log e).seq = s.seq := rfl
@[simp] theorem State.log_step (s : State) (e : Event) : (s.log e).step = s.step := rfl
@[simp] theorem State.log_held (s : State) (e : Event) : (s.log e).held = s.held := rfl
@[simp] theorem State.log_addr (s : State) (e : Event) : (s.log e).addr = s.addr := rfl
@[simp] theorem State.log_actual (s : State) (e : Event) : (s.log e).actual = s.actual := rfl
@[simp] theorem State.log_lastErr (s : State) (e : Event) : (s.log e).lastErr = s.lastErr := rfl
@[simp] theorem State.log_old (s : State) (e : Event) : (s.log e).old = s.old := rfl
@[simp] theorem State.log_pre (s : State) (e : Event) : (s.log e).pre = s.pre := rfl
@[simp] theorem State.log_hzl (s : State) (e : Event) : (s.log e).hzl = s.hzl := rfl
@[simp] theorem State.log_on (s : State) (e : Event) : (s.log e).on = s.on := rfl
@[simp] theorem State.log_off (s : State) (e : Event) : (s.log e).off = s.off := rfl
@[simp] theorem State.log_base (s : State) (e : Event) : (s.log e).base = s.base := rfl
@[simp] theorem State.log_tmr (s : State) (e : Event) : (s.log e).tmr = s.tmr := rfl
@[simp] theorem State.log_req (s : State) (e : Event) : (s.log e).req = s.req := rfl
@[simp] theorem State.log_rsp (s : State) (e : Event) : (s.log e).rsp = s.rsp := rfl
@[simp] theorem State.log_host (s : State) (e : Event) : (s.log e).host = s.host := rfl
@[simp] theorem State.log_bus (s : State) (e : Event) : (s.log e).bus = s.bus := rfl
@[simp] theorem State.log_clk (s : State) (e : Event) : (s.log e).clk = s.clk := rfl
@[simp] theorem State.log_events (s : State) (e : Event) : (s.log e).events = e :: s.events := rfl
@[simp] theorem State.log_dev (s : State) (e : Event) : (s.log e).dev = s.dev := rfl
@[simp] theorem State.log_draws (s : State) (e : Event) : (s.log e).draws = s.draws := rfl

/-! ### `State.setSt` -/

@[simp] theorem State.setSt_st (s : State) (x : Lifecycle) : (s.setSt x).st = x := rfl
@[simp] theorem State.setSt_seq (s : State) (x : Lifecycle) : (s.setSt x).seq = s.seq := rfl
@[simp] theorem State.setSt_step (s : State) (x : Lifecycle) : (s.setSt x).step = s.step := rfl
@[simp] theorem State.setSt_held (s : State) (x : Lifecycle) : (s.setSt x).held = s.held := rfl
@[simp] theorem State.setSt_addr (s : State) (x : Lifecycle) : (s.setSt x).addr = s.addr := rfl
@[simp] theorem State.setSt_actual (s : State) (x : Lifecycle) : (s.setSt x).actual = s.actual := rfl
@[simp] theorem State.setSt_lastErr (s : State) (x : Lifecycle) : (s.setSt x).lastErr = s.lastErr := rfl
@[simp] theorem State.setSt_old (s : State) (x : Lifecycle) : (s.setSt x).old = s.old := rfl
@[simp] theorem State.setSt_pre (s : State) (x : Lifecycle) : (s.setSt x).pre = s.pre := rfl
@[simp] theorem State.setSt_hzl (s : State) (x : Lifecycle) : (s.setSt x).hzl = s.hzl := rfl
@[simp] theorem State.setSt_on (s : State) (x : Lifecycle) : (s.setSt x).on = s.on := rfl
@[simp] theorem State.setSt_off (s : State) (x : Lifecycle) : (s.setSt x).off = s.off := rfl
@[simp] theorem State.setSt_base (s : State) (x : Lifecycle) : (s.setSt x).base = s.base := rfl
@[simp] theorem State.setSt_tmr (s : State) (x : Lifecycle) : (s.setSt x).tmr = s.tmr := rfl
@[simp] theorem State.setSt_req (s : State) (x : Lifecycle) : (s.setSt x).req = s.req := rfl
@[simp] theorem State.setSt_rsp (s : State) (x : Lifecycle) : (s.setSt x).rsp = s.rsp := rfl
@[simp] theorem State.setSt_host (s : State) (x : Lifecycle) : (s.setSt x).host = s.host := rfl
@[simp] theorem State.setSt_bus (s : State) (x : Lifecycle) : (s.setSt x).bus = s.bus := rfl
@[simp] theorem State.setSt_clk (s : State) (x : Lifecycle) : (s.setSt x).clk = s.clk := rfl
@[simp] theorem State.setSt_events (s : State) (x : Lifecycle) : (s.setSt x).events = s.events := rfl
@[simp] theorem State.setSt_dev (s : State) (x : Lifecycle) : (s.setSt x).dev = s.dev := rfl
@[simp] theorem State.setSt_draws (s : State) (x : Lifecycle) : (s.setSt x).draws = s.draws := rfl

/-! ### `State.goto` -/

@[simp] theorem State.goto_st (s : State) (q : SeqId) (k : BitVec 3) : (s.goto q k).st = s.st := rfl
@[simp] theorem State.goto_seq (s : State) (q : SeqId) (k : BitVec 3) : (s.goto q k).seq = q := rfl
@[simp] theorem State.goto_step (s : State) (q : SeqId) (k : BitVec 3) : (s.goto q k).step = k := rfl
@[simp] theorem State.goto_held (s : State) (q : SeqId) (k : BitVec 3) : (s.goto q k).held = s.held := rfl
@[simp] theorem State.goto_addr (s : State) (q : SeqId) (k : BitVec 3) : (s.goto q k).addr = s.addr := rfl
@[simp] theorem State.goto_actual (s : State) (q : SeqId) (k : BitVec 3) : (s.goto q k).actual = s.actual := rfl
@[simp] theorem State.goto_lastErr (s : State) (q : SeqId) (k : BitVec 3) : (s.goto q k).lastErr = s.lastErr := rfl
@[simp] theorem State.goto_old (s : State) (q : SeqId) (k : BitVec 3) : (s.goto q k).old = s.old := rfl
@[simp] theorem State.goto_pre (s : State) (q : SeqId) (k : BitVec 3) : (s.goto q k).pre = s.pre := rfl
@[simp] theorem State.goto_hzl (s : State) (q : SeqId) (k : BitVec 3) : (s.goto q k).hzl = s.hzl := rfl
@[simp] theorem State.goto_on (s : State) (q : SeqId) (k : BitVec 3) : (s.goto q k).on = s.on := rfl
@[simp] theorem State.goto_off (s : State) (q : SeqId) (k : BitVec 3) : (s.goto q k).off = s.off := rfl
@[simp] theorem State.goto_base (s : State) (q : SeqId) (k : BitVec 3) : (s.goto q k).base = s.base := rfl
@[simp] theorem State.goto_tmr (s : State) (q : SeqId) (k : BitVec 3) : (s.goto q k).tmr = s.tmr := rfl
@[simp] theorem State.goto_req (s : State) (q : SeqId) (k : BitVec 3) : (s.goto q k).req = s.req := rfl
@[simp] theorem State.goto_rsp (s : State) (q : SeqId) (k : BitVec 3) : (s.goto q k).rsp = s.rsp := rfl
@[simp] theorem State.goto_host (s : State) (q : SeqId) (k : BitVec 3) : (s.goto q k).host = s.host := rfl
@[simp] theorem State.goto_bus (s : State) (q : SeqId) (k : BitVec 3) : (s.goto q k).bus = s.bus := rfl
@[simp] theorem State.goto_clk (s : State) (q : SeqId) (k : BitVec 3) : (s.goto q k).clk = s.clk := rfl
@[simp] theorem State.goto_events (s : State) (q : SeqId) (k : BitVec 3) : (s.goto q k).events = s.events := rfl
@[simp] theorem State.goto_dev (s : State) (q : SeqId) (k : BitVec 3) : (s.goto q k).dev = s.dev := rfl
@[simp] theorem State.goto_draws (s : State) (q : SeqId) (k : BitVec 3) : (s.goto q k).draws = s.draws := rfl

/-! ### `State.latchPair` -/

@[simp] theorem State.latchPair_st (s : State) (a b : Tick) (c : Byte) : (s.latchPair a b c).st = s.st := rfl
@[simp] theorem State.latchPair_seq (s : State) (a b : Tick) (c : Byte) : (s.latchPair a b c).seq = s.seq := rfl
@[simp] theorem State.latchPair_step (s : State) (a b : Tick) (c : Byte) : (s.latchPair a b c).step = s.step := rfl
@[simp] theorem State.latchPair_held (s : State) (a b : Tick) (c : Byte) : (s.latchPair a b c).held = s.held := rfl
@[simp] theorem State.latchPair_addr (s : State) (a b : Tick) (c : Byte) : (s.latchPair a b c).addr = s.addr := rfl
@[simp] theorem State.latchPair_actual (s : State) (a b : Tick) (c : Byte) : (s.latchPair a b c).actual = s.actual := rfl
@[simp] theorem State.latchPair_lastErr (s : State) (a b : Tick) (c : Byte) : (s.latchPair a b c).lastErr = s.lastErr := rfl
@[simp] theorem State.latchPair_old (s : State) (a b : Tick) (c : Byte) : (s.latchPair a b c).old = s.old := rfl
@[simp] theorem State.latchPair_pre (s : State) (a b : Tick) (c : Byte) : (s.latchPair a b c).pre = s.pre := rfl
@[simp] theorem State.latchPair_hzl (s : State) (a b : Tick) (c : Byte) : (s.latchPair a b c).hzl = s.hzl := rfl
@[simp] theorem State.latchPair_on (s : State) (a b : Tick) (c : Byte) : (s.latchPair a b c).on = a := rfl
@[simp] theorem State.latchPair_off (s : State) (a b : Tick) (c : Byte) : (s.latchPair a b c).off = b := rfl
@[simp] theorem State.latchPair_base (s : State) (a b : Tick) (c : Byte) : (s.latchPair a b c).base = c := rfl
@[simp] theorem State.latchPair_tmr (s : State) (a b : Tick) (c : Byte) : (s.latchPair a b c).tmr = s.tmr := rfl
@[simp] theorem State.latchPair_req (s : State) (a b : Tick) (c : Byte) : (s.latchPair a b c).req = s.req := rfl
@[simp] theorem State.latchPair_rsp (s : State) (a b : Tick) (c : Byte) : (s.latchPair a b c).rsp = s.rsp := rfl
@[simp] theorem State.latchPair_host (s : State) (a b : Tick) (c : Byte) : (s.latchPair a b c).host = s.host := rfl
@[simp] theorem State.latchPair_bus (s : State) (a b : Tick) (c : Byte) : (s.latchPair a b c).bus = s.bus := rfl
@[simp] theorem State.latchPair_clk (s : State) (a b : Tick) (c : Byte) : (s.latchPair a b c).clk = s.clk := rfl
@[simp] theorem State.latchPair_events (s : State) (a b : Tick) (c : Byte) : (s.latchPair a b c).events = s.events := rfl
@[simp] theorem State.latchPair_dev (s : State) (a b : Tick) (c : Byte) : (s.latchPair a b c).dev = s.dev := rfl
@[simp] theorem State.latchPair_draws (s : State) (a b : Tick) (c : Byte) : (s.latchPair a b c).draws = s.draws := rfl

/-! ### `State.latchFreq` -/

@[simp] theorem State.latchFreq_st (s : State) (h : BitVec 16) (p : Byte) : (s.latchFreq h p).st = s.st := rfl
@[simp] theorem State.latchFreq_seq (s : State) (h : BitVec 16) (p : Byte) : (s.latchFreq h p).seq = s.seq := rfl
@[simp] theorem State.latchFreq_step (s : State) (h : BitVec 16) (p : Byte) : (s.latchFreq h p).step = s.step := rfl
@[simp] theorem State.latchFreq_held (s : State) (h : BitVec 16) (p : Byte) : (s.latchFreq h p).held = s.held := rfl
@[simp] theorem State.latchFreq_addr (s : State) (h : BitVec 16) (p : Byte) : (s.latchFreq h p).addr = s.addr := rfl
@[simp] theorem State.latchFreq_actual (s : State) (h : BitVec 16) (p : Byte) : (s.latchFreq h p).actual = s.actual := rfl
@[simp] theorem State.latchFreq_lastErr (s : State) (h : BitVec 16) (p : Byte) : (s.latchFreq h p).lastErr = s.lastErr := rfl
@[simp] theorem State.latchFreq_old (s : State) (h : BitVec 16) (p : Byte) : (s.latchFreq h p).old = s.old := rfl
@[simp] theorem State.latchFreq_pre (s : State) (h : BitVec 16) (p : Byte) : (s.latchFreq h p).pre = p := rfl
@[simp] theorem State.latchFreq_hzl (s : State) (h : BitVec 16) (p : Byte) : (s.latchFreq h p).hzl = h := rfl
@[simp] theorem State.latchFreq_on (s : State) (h : BitVec 16) (p : Byte) : (s.latchFreq h p).on = s.on := rfl
@[simp] theorem State.latchFreq_off (s : State) (h : BitVec 16) (p : Byte) : (s.latchFreq h p).off = s.off := rfl
@[simp] theorem State.latchFreq_base (s : State) (h : BitVec 16) (p : Byte) : (s.latchFreq h p).base = s.base := rfl
@[simp] theorem State.latchFreq_tmr (s : State) (h : BitVec 16) (p : Byte) : (s.latchFreq h p).tmr = s.tmr := rfl
@[simp] theorem State.latchFreq_req (s : State) (h : BitVec 16) (p : Byte) : (s.latchFreq h p).req = s.req := rfl
@[simp] theorem State.latchFreq_rsp (s : State) (h : BitVec 16) (p : Byte) : (s.latchFreq h p).rsp = s.rsp := rfl
@[simp] theorem State.latchFreq_host (s : State) (h : BitVec 16) (p : Byte) : (s.latchFreq h p).host = s.host := rfl
@[simp] theorem State.latchFreq_bus (s : State) (h : BitVec 16) (p : Byte) : (s.latchFreq h p).bus = s.bus := rfl
@[simp] theorem State.latchFreq_clk (s : State) (h : BitVec 16) (p : Byte) : (s.latchFreq h p).clk = s.clk := rfl
@[simp] theorem State.latchFreq_events (s : State) (h : BitVec 16) (p : Byte) : (s.latchFreq h p).events = s.events := rfl
@[simp] theorem State.latchFreq_dev (s : State) (h : BitVec 16) (p : Byte) : (s.latchFreq h p).dev = s.dev := rfl
@[simp] theorem State.latchFreq_draws (s : State) (h : BitVec 16) (p : Byte) : (s.latchFreq h p).draws = s.draws := rfl

/-! ### `State.request` -/

@[simp] theorem State.request_st (s : State) (op : BusOp) : (s.request op).st = s.st := rfl
@[simp] theorem State.request_seq (s : State) (op : BusOp) : (s.request op).seq = s.seq := rfl
@[simp] theorem State.request_step (s : State) (op : BusOp) : (s.request op).step = s.step := rfl
@[simp] theorem State.request_held (s : State) (op : BusOp) : (s.request op).held = s.held := rfl
@[simp] theorem State.request_addr (s : State) (op : BusOp) : (s.request op).addr = s.addr := rfl
@[simp] theorem State.request_actual (s : State) (op : BusOp) : (s.request op).actual = s.actual := rfl
@[simp] theorem State.request_lastErr (s : State) (op : BusOp) : (s.request op).lastErr = s.lastErr := rfl
@[simp] theorem State.request_old (s : State) (op : BusOp) : (s.request op).old = s.old := rfl
@[simp] theorem State.request_pre (s : State) (op : BusOp) : (s.request op).pre = s.pre := rfl
@[simp] theorem State.request_hzl (s : State) (op : BusOp) : (s.request op).hzl = s.hzl := rfl
@[simp] theorem State.request_on (s : State) (op : BusOp) : (s.request op).on = s.on := rfl
@[simp] theorem State.request_off (s : State) (op : BusOp) : (s.request op).off = s.off := rfl
@[simp] theorem State.request_base (s : State) (op : BusOp) : (s.request op).base = s.base := rfl
@[simp] theorem State.request_tmr (s : State) (op : BusOp) : (s.request op).tmr = s.tmr := rfl
@[simp] theorem State.request_req (s : State) (op : BusOp) : (s.request op).req = some { addr7 := s.addr, op := op } := rfl
@[simp] theorem State.request_rsp (s : State) (op : BusOp) : (s.request op).rsp = s.rsp := rfl
@[simp] theorem State.request_host (s : State) (op : BusOp) : (s.request op).host = s.host := rfl
@[simp] theorem State.request_bus (s : State) (op : BusOp) : (s.request op).bus = s.bus := rfl
@[simp] theorem State.request_clk (s : State) (op : BusOp) : (s.request op).clk = s.clk := rfl
@[simp] theorem State.request_events (s : State) (op : BusOp) : (s.request op).events = s.events := rfl
@[simp] theorem State.request_dev (s : State) (op : BusOp) : (s.request op).dev = s.dev := rfl
@[simp] theorem State.request_draws (s : State) (op : BusOp) : (s.request op).draws = s.draws := rfl

/-! ### `State.respond` -/

@[simp] theorem State.respond_st (s : State) (op : BitVec 4) (e : ErrKind) (r : BitVec 16) : (s.respond op e r).st = s.st := rfl
@[simp] theorem State.respond_seq (s : State) (op : BitVec 4) (e : ErrKind) (r : BitVec 16) : (s.respond op e r).seq = .idle := rfl
@[simp] theorem State.respond_step (s : State) (op : BitVec 4) (e : ErrKind) (r : BitVec 16) : (s.respond op e r).step = 0 := rfl
@[simp] theorem State.respond_held (s : State) (op : BitVec 4) (e : ErrKind) (r : BitVec 16) : (s.respond op e r).held = s.held := rfl
@[simp] theorem State.respond_addr (s : State) (op : BitVec 4) (e : ErrKind) (r : BitVec 16) : (s.respond op e r).addr = s.addr := rfl
@[simp] theorem State.respond_actual (s : State) (op : BitVec 4) (e : ErrKind) (r : BitVec 16) : (s.respond op e r).actual = s.actual := rfl
@[simp] theorem State.respond_lastErr (s : State) (op : BitVec 4) (e : ErrKind) (r : BitVec 16) : (s.respond op e r).lastErr = e := rfl
@[simp] theorem State.respond_old (s : State) (op : BitVec 4) (e : ErrKind) (r : BitVec 16) : (s.respond op e r).old = s.old := rfl
@[simp] theorem State.respond_pre (s : State) (op : BitVec 4) (e : ErrKind) (r : BitVec 16) : (s.respond op e r).pre = s.pre := rfl
@[simp] theorem State.respond_hzl (s : State) (op : BitVec 4) (e : ErrKind) (r : BitVec 16) : (s.respond op e r).hzl = s.hzl := rfl
@[simp] theorem State.respond_on (s : State) (op : BitVec 4) (e : ErrKind) (r : BitVec 16) : (s.respond op e r).on = s.on := rfl
@[simp] theorem State.respond_off (s : State) (op : BitVec 4) (e : ErrKind) (r : BitVec 16) : (s.respond op e r).off = s.off := rfl
@[simp] theorem State.respond_base (s : State) (op : BitVec 4) (e : ErrKind) (r : BitVec 16) : (s.respond op e r).base = s.base := rfl
@[simp] theorem State.respond_tmr (s : State) (op : BitVec 4) (e : ErrKind) (r : BitVec 16) : (s.respond op e r).tmr = s.tmr := rfl
@[simp] theorem State.respond_req (s : State) (op : BitVec 4) (e : ErrKind) (r : BitVec 16) : (s.respond op e r).req = s.req := rfl
@[simp] theorem State.respond_rsp (s : State) (op : BitVec 4) (e : ErrKind) (r : BitVec 16) : (s.respond op e r).rsp = some (responseWord op e r) := rfl
@[simp] theorem State.respond_host (s : State) (op : BitVec 4) (e : ErrKind) (r : BitVec 16) : (s.respond op e r).host = s.host := rfl
@[simp] theorem State.respond_bus (s : State) (op : BitVec 4) (e : ErrKind) (r : BitVec 16) : (s.respond op e r).bus = s.bus := rfl
@[simp] theorem State.respond_clk (s : State) (op : BitVec 4) (e : ErrKind) (r : BitVec 16) : (s.respond op e r).clk = s.clk := rfl
@[simp] theorem State.respond_events (s : State) (op : BitVec 4) (e : ErrKind) (r : BitVec 16) : (s.respond op e r).events = s.events := rfl
@[simp] theorem State.respond_dev (s : State) (op : BitVec 4) (e : ErrKind) (r : BitVec 16) : (s.respond op e r).dev = s.dev := rfl
@[simp] theorem State.respond_draws (s : State) (op : BitVec 4) (e : ErrKind) (r : BitVec 16) : (s.respond op e r).draws = s.draws := rfl

/-! ### `State.deliver` -/

@[simp] theorem State.deliver_st (s : State) (r : Word) : (s.deliver r).st = s.st := rfl
@[simp] theorem State.deliver_seq (s : State) (r : Word) : (s.deliver r).seq = s.seq := rfl
@[simp] theorem State.deliver_step (s : State) (r : Word) : (s.deliver r).step = s.step := rfl
@[simp] theorem State.deliver_held (s : State) (r : Word) : (s.deliver r).held = s.held := rfl
@[simp] theorem State.deliver_addr (s : State) (r : Word) : (s.deliver r).addr = s.addr := rfl
@[simp] theorem State.deliver_actual (s : State) (r : Word) : (s.deliver r).actual = s.actual := rfl
@[simp] theorem State.deliver_lastErr (s : State) (r : Word) : (s.deliver r).lastErr = s.lastErr := rfl
@[simp] theorem State.deliver_old (s : State) (r : Word) : (s.deliver r).old = s.old := rfl
@[simp] theorem State.deliver_pre (s : State) (r : Word) : (s.deliver r).pre = s.pre := rfl
@[simp] theorem State.deliver_hzl (s : State) (r : Word) : (s.deliver r).hzl = s.hzl := rfl
@[simp] theorem State.deliver_on (s : State) (r : Word) : (s.deliver r).on = s.on := rfl
@[simp] theorem State.deliver_off (s : State) (r : Word) : (s.deliver r).off = s.off := rfl
@[simp] theorem State.deliver_base (s : State) (r : Word) : (s.deliver r).base = s.base := rfl
@[simp] theorem State.deliver_tmr (s : State) (r : Word) : (s.deliver r).tmr = s.tmr := rfl
@[simp] theorem State.deliver_req (s : State) (r : Word) : (s.deliver r).req = s.req := rfl
@[simp] theorem State.deliver_rsp (s : State) (r : Word) : (s.deliver r).rsp = none := rfl
@[simp] theorem State.deliver_host (s : State) (r : Word) : (s.deliver r).host = s.host := rfl
@[simp] theorem State.deliver_bus (s : State) (r : Word) : (s.deliver r).bus = s.bus := rfl
@[simp] theorem State.deliver_clk (s : State) (r : Word) : (s.deliver r).clk = s.clk := rfl
@[simp] theorem State.deliver_events (s : State) (r : Word) : (s.deliver r).events = .rsp r :: s.events := rfl
@[simp] theorem State.deliver_dev (s : State) (r : Word) : (s.deliver r).dev = s.dev := rfl
@[simp] theorem State.deliver_draws (s : State) (r : Word) : (s.deliver r).draws = s.draws := rfl

/-! ### `State.devWrite` -/

@[simp] theorem State.devWrite_st (s : State) (a : BusAddr) (r v : Byte) : (s.devWrite a r v).st = s.st := rfl
@[simp] theorem State.devWrite_seq (s : State) (a : BusAddr) (r v : Byte) : (s.devWrite a r v).seq = s.seq := rfl
@[simp] theorem State.devWrite_step (s : State) (a : BusAddr) (r v : Byte) : (s.devWrite a r v).step = s.step := rfl
@[simp] theorem State.devWrite_held (s : State) (a : BusAddr) (r v : Byte) : (s.devWrite a r v).held = s.held := rfl
@[simp] theorem State.devWrite_addr (s : State) (a : BusAddr) (r v : Byte) : (s.devWrite a r v).addr = s.addr := rfl
@[simp] theorem State.devWrite_actual (s : State) (a : BusAddr) (r v : Byte) : (s.devWrite a r v).actual = s.actual := rfl
@[simp] theorem State.devWrite_lastErr (s : State) (a : BusAddr) (r v : Byte) : (s.devWrite a r v).lastErr = s.lastErr := rfl
@[simp] theorem State.devWrite_old (s : State) (a : BusAddr) (r v : Byte) : (s.devWrite a r v).old = s.old := rfl
@[simp] theorem State.devWrite_pre (s : State) (a : BusAddr) (r v : Byte) : (s.devWrite a r v).pre = s.pre := rfl
@[simp] theorem State.devWrite_hzl (s : State) (a : BusAddr) (r v : Byte) : (s.devWrite a r v).hzl = s.hzl := rfl
@[simp] theorem State.devWrite_on (s : State) (a : BusAddr) (r v : Byte) : (s.devWrite a r v).on = s.on := rfl
@[simp] theorem State.devWrite_off (s : State) (a : BusAddr) (r v : Byte) : (s.devWrite a r v).off = s.off := rfl
@[simp] theorem State.devWrite_base (s : State) (a : BusAddr) (r v : Byte) : (s.devWrite a r v).base = s.base := rfl
@[simp] theorem State.devWrite_tmr (s : State) (a : BusAddr) (r v : Byte) : (s.devWrite a r v).tmr = s.tmr := rfl
@[simp] theorem State.devWrite_req (s : State) (a : BusAddr) (r v : Byte) : (s.devWrite a r v).req = s.req := rfl
@[simp] theorem State.devWrite_rsp (s : State) (a : BusAddr) (r v : Byte) : (s.devWrite a r v).rsp = s.rsp := rfl
@[simp] theorem State.devWrite_host (s : State) (a : BusAddr) (r v : Byte) : (s.devWrite a r v).host = s.host := rfl
@[simp] theorem State.devWrite_bus (s : State) (a : BusAddr) (r v : Byte) : (s.devWrite a r v).bus = s.bus := rfl
@[simp] theorem State.devWrite_clk (s : State) (a : BusAddr) (r v : Byte) : (s.devWrite a r v).clk = s.clk := rfl
@[simp] theorem State.devWrite_events (s : State) (a : BusAddr) (r v : Byte) : (s.devWrite a r v).events = s.events := rfl
@[simp] theorem State.devWrite_dev (s : State) (a : BusAddr) (r v : Byte) : (s.devWrite a r v).dev = Memory.write s.dev (deviceKey a r) v := rfl
@[simp] theorem State.devWrite_draws (s : State) (a : BusAddr) (r v : Byte) : (s.devWrite a r v).draws = s.draws := rfl

/-! ### `State.answered` -/

@[simp] theorem State.answered_st (s : State) (q : BusReq) (a : BusRsp) (l : List BusRsp) : (s.answered q a l).st = s.st := rfl
@[simp] theorem State.answered_seq (s : State) (q : BusReq) (a : BusRsp) (l : List BusRsp) : (s.answered q a l).seq = s.seq := rfl
@[simp] theorem State.answered_step (s : State) (q : BusReq) (a : BusRsp) (l : List BusRsp) : (s.answered q a l).step = s.step := rfl
@[simp] theorem State.answered_held (s : State) (q : BusReq) (a : BusRsp) (l : List BusRsp) : (s.answered q a l).held = s.held := rfl
@[simp] theorem State.answered_addr (s : State) (q : BusReq) (a : BusRsp) (l : List BusRsp) : (s.answered q a l).addr = s.addr := rfl
@[simp] theorem State.answered_actual (s : State) (q : BusReq) (a : BusRsp) (l : List BusRsp) : (s.answered q a l).actual = s.actual := rfl
@[simp] theorem State.answered_lastErr (s : State) (q : BusReq) (a : BusRsp) (l : List BusRsp) : (s.answered q a l).lastErr = s.lastErr := rfl
@[simp] theorem State.answered_old (s : State) (q : BusReq) (a : BusRsp) (l : List BusRsp) : (s.answered q a l).old = s.old := rfl
@[simp] theorem State.answered_pre (s : State) (q : BusReq) (a : BusRsp) (l : List BusRsp) : (s.answered q a l).pre = s.pre := rfl
@[simp] theorem State.answered_hzl (s : State) (q : BusReq) (a : BusRsp) (l : List BusRsp) : (s.answered q a l).hzl = s.hzl := rfl
@[simp] theorem State.answered_on (s : State) (q : BusReq) (a : BusRsp) (l : List BusRsp) : (s.answered q a l).on = s.on := rfl
@[simp] theorem State.answered_off (s : State) (q : BusReq) (a : BusRsp) (l : List BusRsp) : (s.answered q a l).off = s.off := rfl
@[simp] theorem State.answered_base (s : State) (q : BusReq) (a : BusRsp) (l : List BusRsp) : (s.answered q a l).base = s.base := rfl
@[simp] theorem State.answered_tmr (s : State) (q : BusReq) (a : BusRsp) (l : List BusRsp) : (s.answered q a l).tmr = s.tmr := rfl
@[simp] theorem State.answered_req (s : State) (q : BusReq) (a : BusRsp) (l : List BusRsp) : (s.answered q a l).req = none := rfl
@[simp] theorem State.answered_rsp (s : State) (q : BusReq) (a : BusRsp) (l : List BusRsp) : (s.answered q a l).rsp = s.rsp := rfl
@[simp] theorem State.answered_host (s : State) (q : BusReq) (a : BusRsp) (l : List BusRsp) : (s.answered q a l).host = s.host := rfl
@[simp] theorem State.answered_bus (s : State) (q : BusReq) (a : BusRsp) (l : List BusRsp) : (s.answered q a l).bus = l := rfl
@[simp] theorem State.answered_clk (s : State) (q : BusReq) (a : BusRsp) (l : List BusRsp) : (s.answered q a l).clk = s.clk := rfl
@[simp] theorem State.answered_events (s : State) (q : BusReq) (a : BusRsp) (l : List BusRsp) : (s.answered q a l).events = .txn q a :: s.events := rfl
@[simp] theorem State.answered_dev (s : State) (q : BusReq) (a : BusRsp) (l : List BusRsp) : (s.answered q a l).dev = s.dev := rfl
@[simp] theorem State.answered_draws (s : State) (q : BusReq) (a : BusRsp) (l : List BusRsp) : (s.answered q a l).draws = s.draws := rfl

/-! ### `State.nextStep` -/

@[simp] theorem State.nextStep_st (s : State) : (s.nextStep).st = s.st := rfl
@[simp] theorem State.nextStep_seq (s : State) : (s.nextStep).seq = s.seq := rfl
@[simp] theorem State.nextStep_step (s : State) : (s.nextStep).step = s.step + 1 := rfl
@[simp] theorem State.nextStep_held (s : State) : (s.nextStep).held = s.held := rfl
@[simp] theorem State.nextStep_addr (s : State) : (s.nextStep).addr = s.addr := rfl
@[simp] theorem State.nextStep_actual (s : State) : (s.nextStep).actual = s.actual := rfl
@[simp] theorem State.nextStep_lastErr (s : State) : (s.nextStep).lastErr = s.lastErr := rfl
@[simp] theorem State.nextStep_old (s : State) : (s.nextStep).old = s.old := rfl
@[simp] theorem State.nextStep_pre (s : State) : (s.nextStep).pre = s.pre := rfl
@[simp] theorem State.nextStep_hzl (s : State) : (s.nextStep).hzl = s.hzl := rfl
@[simp] theorem State.nextStep_on (s : State) : (s.nextStep).on = s.on := rfl
@[simp] theorem State.nextStep_off (s : State) : (s.nextStep).off = s.off := rfl
@[simp] theorem State.nextStep_base (s : State) : (s.nextStep).base = s.base := rfl
@[simp] theorem State.nextStep_tmr (s : State) : (s.nextStep).tmr = if s.seq = .freqSeq ∧ s.step = 3 then Config.settleCycles else s.tmr := rfl
@[simp] theorem State.nextStep_req (s : State) : (s.nextStep).req = s.req := rfl
@[simp] theorem State.nextStep_rsp (s : State) : (s.nextStep).rsp = s.rsp := rfl
@[simp] theorem State.nextStep_host (s : State) : (s.nextStep).host = s.host := rfl
@[simp] theorem State.nextStep_bus (s : State) : (s.nextStep).bus = s.bus := rfl
@[simp] theorem State.nextStep_clk (s : State) : (s.nextStep).clk = s.clk := rfl
@[simp] theorem State.nextStep_events (s : State) : (s.nextStep).events = s.events := rfl
@[simp] theorem State.nextStep_dev (s : State) : (s.nextStep).dev = s.dev := rfl
@[simp] theorem State.nextStep_draws (s : State) : (s.nextStep).draws = s.draws := rfl

/-! ### `State.hardwareReset` -/

@[simp] theorem State.hardwareReset_st (s : State) : s.hardwareReset.st = .unopened := rfl
@[simp] theorem State.hardwareReset_seq (s : State) : s.hardwareReset.seq = .idle := rfl
@[simp] theorem State.hardwareReset_step (s : State) : s.hardwareReset.step = 0 := rfl
@[simp] theorem State.hardwareReset_held (s : State) : s.hardwareReset.held = false := rfl
@[simp] theorem State.hardwareReset_addr (s : State) : s.hardwareReset.addr = Config.freeBits 7 s.draws := rfl
@[simp] theorem State.hardwareReset_actual (s : State) : s.hardwareReset.actual = 0 := rfl
@[simp] theorem State.hardwareReset_lastErr (s : State) : s.hardwareReset.lastErr = .ok := rfl
@[simp] theorem State.hardwareReset_old (s : State) : s.hardwareReset.old = Config.freeBits 8 (s.draws + 1) := rfl
@[simp] theorem State.hardwareReset_pre (s : State) : s.hardwareReset.pre = Config.freeBits 8 (s.draws + 2) := rfl
@[simp] theorem State.hardwareReset_hzl (s : State) : s.hardwareReset.hzl = Config.freeBits 16 (s.draws + 3) := rfl
@[simp] theorem State.hardwareReset_on (s : State) : s.hardwareReset.on = Config.freeBits 13 (s.draws + 4) := rfl
@[simp] theorem State.hardwareReset_off (s : State) : s.hardwareReset.off = Config.freeBits 13 (s.draws + 5) := rfl
@[simp] theorem State.hardwareReset_base (s : State) : s.hardwareReset.base = Config.freeBits 8 (s.draws + 6) := rfl
@[simp] theorem State.hardwareReset_tmr (s : State) : s.hardwareReset.tmr = Config.freeCount (s.draws + 7) := rfl
@[simp] theorem State.hardwareReset_req (s : State) : s.hardwareReset.req = s.req := rfl
@[simp] theorem State.hardwareReset_rsp (s : State) : s.hardwareReset.rsp = s.rsp := rfl
@[simp] theorem State.hardwareReset_host (s : State) : s.hardwareReset.host = s.host := rfl
@[simp] theorem State.hardwareReset_bus (s : State) : s.hardwareReset.bus = s.bus := rfl
@[simp] theorem State.hardwareReset_clk (s : State) : s.hardwareReset.clk = s.clk := rfl
@[simp] theorem State.hardwareReset_events (s : State) : s.hardwareReset.events = .hwReset :: s.events := rfl
@[simp] theorem State.hardwareReset_dev (s : State) : s.hardwareReset.dev = s.dev := rfl
@[simp] theorem State.hardwareReset_draws (s : State) : s.hardwareReset.draws = s.draws + 8 := rfl

/-! ### `State.devForgetAll`: only `dev` and `draws` change -/

@[simp] theorem State.devForgetAll_st (s : State) (a : BusAddr) (l : List Byte) :
    (s.devForgetAll a l).st = s.st := by
  induction l generalizing s with
  | nil => rfl
  | cons _ _ ih => exact (ih _).trans rfl
@[simp] theorem State.devForgetAll_seq (s : State) (a : BusAddr) (l : List Byte) :
    (s.devForgetAll a l).seq = s.seq := by
  induction l generalizing s with
  | nil => rfl
  | cons _ _ ih => exact (ih _).trans rfl
@[simp] theorem State.devForgetAll_step (s : State) (a : BusAddr) (l : List Byte) :
    (s.devForgetAll a l).step = s.step := by
  induction l generalizing s with
  | nil => rfl
  | cons _ _ ih => exact (ih _).trans rfl
@[simp] theorem State.devForgetAll_held (s : State) (a : BusAddr) (l : List Byte) :
    (s.devForgetAll a l).held = s.held := by
  induction l generalizing s with
  | nil => rfl
  | cons _ _ ih => exact (ih _).trans rfl
@[simp] theorem State.devForgetAll_addr (s : State) (a : BusAddr) (l : List Byte) :
    (s.devForgetAll a l).addr = s.addr := by
  induction l generalizing s with
  | nil => rfl
  | cons _ _ ih => exact (ih _).trans rfl
@[simp] theorem State.devForgetAll_actual (s : State) (a : BusAddr) (l : List Byte) :
    (s.devForgetAll a l).actual = s.actual := by
  induction l generalizing s with
  | nil => rfl
  | cons _ _ ih => exact (ih _).trans rfl
@[simp] theorem State.devForgetAll_lastErr (s : State) (a : BusAddr) (l : List Byte) :
    (s.devForgetAll a l).lastErr = s.lastErr := by
  induction l generalizing s with
  | nil => rfl
  | cons _ _ ih => exact (ih _).trans rfl
@[simp] theorem State.devForgetAll_old (s : State) (a : BusAddr) (l : List Byte) :
    (s.devForgetAll a l).old = s.old := by
  induction l generalizing s with
  | nil => rfl
  | cons _ _ ih => exact (ih _).trans rfl
@[simp] theorem State.devForgetAll_pre (s : State) (a : BusAddr) (l : List Byte) :
    (s.devForgetAll a l).pre = s.pre := by
  induction l generalizing s with
  | nil => rfl
  | cons _ _ ih => exact (ih _).trans rfl
@[simp] theorem State.devForgetAll_hzl (s : State) (a : BusAddr) (l : List Byte) :
    (s.devForgetAll a l).hzl = s.hzl := by
  induction l generalizing s with
  | nil => rfl
  | cons _ _ ih => exact (ih _).trans rfl
@[simp] theorem State.devForgetAll_on (s : State) (a : BusAddr) (l : List Byte) :
    (s.devForgetAll a l).on = s.on := by
  induction l generalizing s with
  | nil => rfl
  | cons _ _ ih => exact (ih _).trans rfl
@[simp] theorem State.devForgetAll_off (s : State) (a : BusAddr) (l : List Byte) :
    (s.devForgetAll a l).off = s.off := by
  induction l generalizing s with
  | nil => rfl
  | cons _ _ ih => exact (ih _).trans rfl
@[simp] theorem State.devForgetAll_base (s : State) (a : BusAddr) (l : List Byte) :
    (s.devForgetAll a l).base = s.base := by
  induction l generalizing s with
  | nil => rfl
  | cons _ _ ih => exact (ih _).trans rfl
@[simp] theorem State.devForgetAll_tmr (s : State) (a : BusAddr) (l : List Byte) :
    (s.devForgetAll a l).tmr = s.tmr := by
  induction l generalizing s with
  | nil => rfl
  | cons _ _ ih => exact (ih _).trans rfl
@[simp] theorem State.devForgetAll_req (s : State) (a : BusAddr) (l : List Byte) :
    (s.devForgetAll a l).req = s.req := by
  induction l generalizing s with
  | nil => rfl
  | cons _ _ ih => exact (ih _).trans rfl
@[simp] theorem State.devForgetAll_rsp (s : State) (a : BusAddr) (l : List Byte) :
    (s.devForgetAll a l).rsp = s.rsp := by
  induction l generalizing s with
  | nil => rfl
  | cons _ _ ih => exact (ih _).trans rfl
@[simp] theorem State.devForgetAll_host (s : State) (a : BusAddr) (l : List Byte) :
    (s.devForgetAll a l).host = s.host := by
  induction l generalizing s with
  | nil => rfl
  | cons _ _ ih => exact (ih _).trans rfl
@[simp] theorem State.devForgetAll_bus (s : State) (a : BusAddr) (l : List Byte) :
    (s.devForgetAll a l).bus = s.bus := by
  induction l generalizing s with
  | nil => rfl
  | cons _ _ ih => exact (ih _).trans rfl
@[simp] theorem State.devForgetAll_clk (s : State) (a : BusAddr) (l : List Byte) :
    (s.devForgetAll a l).clk = s.clk := by
  induction l generalizing s with
  | nil => rfl
  | cons _ _ ih => exact (ih _).trans rfl
@[simp] theorem State.devForgetAll_events (s : State) (a : BusAddr) (l : List Byte) :
    (s.devForgetAll a l).events = s.events := by
  induction l generalizing s with
  | nil => rfl
  | cons _ _ ih => exact (ih _).trans rfl

end Sys2Proof.Machine
end

