-- ==== Sys2Proof/Laws/Memory.lean ====
section
/-! SUPPORT. The device register list: read after write, a write leaves every other key alone, and every
operation keeps the canonical form. -/

namespace Sys2Proof.Machine

theorem Memory.read_write_self (m : List Host.Cell) (a : Nat) (v : Byte) :
    Memory.read (Memory.write m a v) a = some v := by
  induction m with
  | nil => simp [Memory.write, Memory.read]
  | cons c rest ih =>
    obtain ⟨k, b⟩ := c
    simp only [Memory.write]
    split
    · simp [Memory.read]
    · split
      · simp [Memory.read]
      · rename_i hne
        simpa [Memory.read, hne] using ih

theorem Memory.read_write_other (m : List Host.Cell) {a k : Nat} (v : Byte) (hne : k ≠ a) :
    Memory.read (Memory.write m a v) k = Memory.read m k := by
  induction m with
  | nil => simp [Memory.write, Memory.read, hne]
  | cons c rest ih =>
    obtain ⟨j, b⟩ := c
    simp only [Memory.write]
    split
    · simp [Memory.read, hne]
    · split
      · rename_i _ heq
        subst heq
        simp [Memory.read, hne]
      · simp only [Memory.read, ih]

theorem Memory.above_write {m : List Host.Cell} {a j : Nat} (v : Byte) (hj : j < a) (h : Memory.above j m = true) :
    Memory.above j (Memory.write m a v) = true := by
  induction m with
  | nil => simpa [Memory.write, Memory.above] using hj
  | cons c rest ih =>
    obtain ⟨k, b⟩ := c
    simp only [Memory.above, List.all_cons, Bool.and_eq_true, decide_eq_true_eq] at h
    obtain ⟨hk, hrest⟩ := h
    simp only [Memory.write]
    split
    · simp [Memory.above, hj, hk, hrest]
    · split
      · simp [Memory.above, hj, hrest]
      · have := ih hrest
        simp only [Memory.above] at this
        simp [Memory.above, hk, this]

theorem Memory.above_mono {m : List Host.Cell} {a j : Nat} (h : a < j) (hm : Memory.above j m = true) :
    Memory.above a m = true := by
  simp only [Memory.above, List.all_eq_true, decide_eq_true_eq] at *
  intro c hc
  exact lt_trans h (hm c hc)

theorem Memory.wf_write {m : List Host.Cell} (a : Nat) (v : Byte) (h : Memory.wf m = true) :
    Memory.wf (Memory.write m a v) = true := by
  induction m with
  | nil => rfl
  | cons c rest ih =>
    obtain ⟨k, b⟩ := c
    simp only [Memory.wf, Bool.and_eq_true] at h
    obtain ⟨hk, hrest⟩ := h
    simp only [Memory.write]
    split
    · rename_i hlt
      have hab : Memory.above a ((k, b) :: rest) = true := by
        have := Memory.above_mono hlt hk
        simp only [Memory.above] at this
        simp [Memory.above, hlt, this]
      simp only [Memory.wf, hab, hk, hrest, Bool.and_self]
    · split
      · rename_i heq
        subst heq
        simp [Memory.wf, hk, hrest]
      · rename_i hnlt hne
        have hka : k < a := by omega
        simp [Memory.wf, Memory.above_write v hka hk, ih hrest]

/-- A write lists only its own key beside those already listed. -/
theorem Memory.all_write {m : List Host.Cell} {a : Nat} {v : Byte} {p : Host.Cell → Bool}
    (hp : p (a, v) = true) (hm : m.all p = true) : (Memory.write m a v).all p = true := by
  induction m with
  | nil => simpa [Memory.write] using hp
  | cons c rest ih =>
    obtain ⟨k, b⟩ := c
    simp only [List.all_cons, Bool.and_eq_true] at hm
    obtain ⟨hc, hrest⟩ := hm
    simp only [Memory.write]
    split
    · simp [hp, hc, hrest]
    · split
      · simp [hp, hrest]
      · simp [hc, ih hrest]

theorem State.devForgetAll_wf {s : State} (a : BusAddr) (l : List Byte) (h : Memory.wf s.dev = true) :
    Memory.wf (s.devForgetAll a l).dev = true := by
  induction l generalizing s with
  | nil => exact h
  | cons reg _ ih => exact ih (Memory.wf_write _ _ h)

/-- Forgetting a group leaves every key outside the group alone. -/
theorem State.devForgetAll_read_other {s : State} {a : BusAddr} {l : List Byte} {k : Nat}
    (h : k ∉ l.map (deviceKey a)) : Memory.read (s.devForgetAll a l).dev k = Memory.read s.dev k := by
  induction l generalizing s with
  | nil => rfl
  | cons reg _ ih =>
    simp only [List.map_cons, List.mem_cons, not_or] at h
    exact (ih h.2).trans (Memory.read_write_other _ _ h.1)

/-- Reset's device list is canonical. -/
theorem State.reset_dev_wf : Memory.wf State.reset.dev = true := rfl

end Sys2Proof.Machine
end

