-- ==== Sys2Proof/Laws/Ops.lean ====
section
/-! SUPPORT. What each shared operation can do, said once. -/

namespace Sys2Proof.Machine

/-- The lifecycle check: the command's own rule, or a rejection with BadState or Closed. -/
theorem checked_cases {isOpen : Bool} {op : BitVec 4} {s a t : State} (h : checked isOpen op s a = .next t) :
    (lifecycleVerdict isOpen s.st = .run ∧ t = a) ∨
      ∃ e, lifecycleVerdict isOpen s.st = .reject e ∧ (e = .badState ∨ e = .closed) ∧ t = s.respond op e 0 := by
  simp only [checked] at h
  split at h
  · rename_i hv
    cases h
    exact .inl ⟨hv, rfl⟩
  · rename_i e hv
    cases h
    refine .inr ⟨e, hv, ?_, rfl⟩
    revert hv
    cases s.st <;> cases isOpen <;> simp [lifecycleVerdict] <;> rintro rfl <;> simp
  · cases h

/-- `rst` runs only when idle without a handle. -/
theorem assertReset_cases {s t : State} (h : assertReset s = .next t) :
    s.seq = .idle ∧ s.held = false ∧ t = s.hardwareReset := by
  simp only [assertReset] at h
  split at h
  · rename_i hc
    cases h
    exact ⟨hc.1, hc.2, rfl⟩
  · cases h

/-- `done:` ends in READY (OPEN, SETFREQ) or leaves ST, and always answers OK. -/
theorem finish_cases {s t : State} (h : finish s = .next t) :
    (s.seq = .openSeq ∧ t = (s.setSt .ready).respond s.seq.op .ok 0) ∨
      (s.seq = .freqSeq ∧
        t = ({ s with actual := BitVec.ofNat 14 (adj s.hzl.toNat) }.setSt .ready).respond s.seq.op .ok
          (BitVec.ofNat 16 (adj s.hzl.toNat))) ∨
      ((s.seq = .resetSeq ∨ s.seq = .chanSeq ∨ s.seq = .allSeq) ∧ t = s.respond s.seq.op .ok 0) := by
  simp only [finish] at h
  split at h <;> rename_i hq <;> cases h <;> simp [hq]

/-- A step's success: the next step, or the end of the sequence. -/
theorem stepDone_cases {s t : State} (h : stepDone s = .next t) :
    (s.step.toNat = s.seq.lastStep ∧ finish s = .next t) ∨ (s.step.toNat ≠ s.seq.lastStep ∧ t = s.nextStep) := by
  simp only [stepDone] at h
  split at h
  · rename_i hl
    exact .inl ⟨hl, h⟩
  · rename_i hl
    cases h
    exact .inr ⟨hl, rfl⟩

/-- A failed transaction: OPEN's REL goes out, CLOSE skips to its release, the rest abort. -/
theorem failed_cases {s t : State} (h : failed s = .next t) :
    (s.seq = .openSeq ∧ t = s.request .rel) ∨ (s.seq = .closeSeq ∧ t = s.goto .closeSeq 5) ∨
      (s.seq = .freqSeq ∧ t = (s.setSt .ready).respond s.seq.op .ioFailure 0) ∨
      ((s.seq = .resetSeq ∨ s.seq = .chanSeq ∨ s.seq = .allSeq) ∧ t = s.respond s.seq.op .ioFailure 0) := by
  simp only [failed] at h
  split at h <;> rename_i hq <;> cases h <;> simp [hq]

/-- REL's answer ends CLOSE, or an OPEN whose reset sequence failed. -/
theorem relAnswered_cases {s t : State} (h : relAnswered s = .next t) :
    (s.seq = .closeSeq ∧ t = ({ s with held := false }.setSt .closed).respond s.seq.op .ok 0) ∨
      (s.seq = .openSeq ∧ t = ({ s with held := false }.setSt .unopened).respond s.seq.op .ioFailure 0) := by
  simp only [relAnswered] at h
  split at h <;> rename_i hq <;> cases h <;> simp [hq]

/-- ACQ's answer: the handle and the next step, or one of the two failures. -/
theorem acqAnswered_cases {x : BusStatus} {s t : State} (h : acqAnswered x s = .next t) :
    (x = .ok ∧ stepDone { s with held := true } = .next t) ∨
      (x = .notFound ∧ t = (s.setSt .unopened).respond s.seq.op .deviceUnavailable 0) ∨
      (x = .inUse ∧ t = (s.setSt .unopened).respond s.seq.op .deviceBusy 0) := by
  cases x <;> simp_all [acqAnswered]

/-- An allowed answer's effect, by the request's kind. -/
theorem answerEffect_cases {q : BusReq} {a : BusRsp} {s t : State} (h : answerEffect q a s = .next t) :
    (q.op = .acq ∧ acqAnswered a.status s = .next t) ∨ (q.op = .rel ∧ relAnswered s = .next t) ∨
      (∃ reg val, q.op = .wr8 reg val ∧ a.status = .ok ∧ stepDone (s.devWrite q.addr7 reg val) = .next t) ∨
      (∃ reg, q.op = .rd8 reg ∧ a.status = .ok ∧ stepDone { s with old := a.rdata } = .next t) ∨
      (((∃ reg val, q.op = .wr8 reg val) ∨ ∃ reg, q.op = .rd8 reg) ∧ a.status ≠ .ok ∧
        failed (s.devForgetAll q.addr7 s.group) = .next t) := by
  obtain ⟨addr7, op⟩ := q
  cases op with
  | acq => exact .inl ⟨rfl, h⟩
  | rel => exact .inr (.inl ⟨rfl, h⟩)
  | wr8 reg val =>
    by_cases ha : a.status = .ok
    · simp only [answerEffect, if_pos ha] at h
      exact .inr (.inr (.inl ⟨reg, val, rfl, ha, h⟩))
    · simp only [answerEffect, if_neg ha, ioFail] at h
      exact .inr (.inr (.inr (.inr ⟨.inl ⟨reg, val, rfl⟩, ha, h⟩)))
  | rd8 reg =>
    by_cases ha : a.status = .ok
    · simp only [answerEffect, if_pos ha] at h
      exact .inr (.inr (.inr (.inl ⟨reg, rfl, ha, h⟩)))
    · simp only [answerEffect, if_neg ha, ioFail] at h
      exact .inr (.inr (.inr (.inr ⟨.inr ⟨reg, rfl⟩, ha, h⟩)))

/-- A step of the delay: no time passes, the delay ends, or it goes on. -/
theorem countDown_cases {s t : State} (h : countDown s = .next t) :
    (s.clk = [] ∧ t = s) ∨
      ∃ c later, s.clk = c :: later ∧
        ((s.tmr ≤ c ∧ t = { s with tmr := 0, step := s.step + 1, clk := later }.log .delay) ∨
          (c < s.tmr ∧ t = { s with tmr := s.tmr - c, clk := later })) := by
  simp only [countDown] at h
  split at h
  · rename_i hc
    cases h
    exact .inl ⟨hc, rfl⟩
  · rename_i c later hc
    split at h <;> cases h
    · exact .inr ⟨c, later, hc, .inl ⟨by assumption, rfl⟩⟩
    · exact .inr ⟨c, later, hc, .inr ⟨by omega, rfl⟩⟩

/-- With nothing outstanding: the table's request goes out, or the delay is counted. -/
theorem issue_cases {s t : State} (h : issue s = .next t) :
    (∃ op, s.micro = some (.bus op) ∧ t = s.request op) ∨ (s.micro = some .delay ∧ countDown s = .next t) := by
  simp only [issue] at h
  split at h
  · cases h
  · rename_i op hm
    cases h
    exact .inl ⟨op, hm, rfl⟩
  · rename_i hm
    exact .inr ⟨hm, h⟩

/-- With a request outstanding: wait, or take the effect of an allowed answer. -/
theorem awaitAnswer_cases {q : BusReq} {s t : State} (h : awaitAnswer q s = .next t) :
    (s.bus = [] ∧ t = s) ∨
      ∃ a rest, s.bus = a :: rest ∧ statusAllowed q.op a.status = true ∧
        answerEffect q a (s.answered q a rest) = .next t := by
  simp only [awaitAnswer] at h
  split at h
  · rename_i hb
    cases h
    exact .inl ⟨hb, rfl⟩
  · rename_i a rest hb
    split at h
    · rename_i ha
      exact .inr ⟨a, rest, hb, ha, h⟩
    · cases h

/-- A step of the sequencer: idle, an answer, or an issue. -/
theorem sequencerStep_cases {s t : State} (h : sequencerStep s = .next t) :
    (s.seq = .idle ∧ t = s) ∨
      (s.seq ≠ .idle ∧ ((∃ q, s.req = some q ∧ awaitAnswer q s = .next t) ∨ (s.req = none ∧ issue s = .next t))) := by
  simp only [sequencerStep] at h
  split at h
  · rename_i hq
    cases h
    exact .inl ⟨hq, rfl⟩
  · rename_i hq
    refine .inr ⟨hq, ?_⟩
    split at h
    · rename_i q hr
      exact .inl ⟨q, hr, h⟩
    · rename_i hr
      exact .inr ⟨hr, h⟩

/-- Accepting a word: IllegalCommand, or the decoded command's meaning. -/
theorem acceptWord_cases {w : Word} {s t : State} (h : acceptWord w s = .next t) :
    (∃ e, decode w = .error e ∧ t = (s.log (.cmd w)).respond (opField w) .illegalCommand 0) ∨
      ∃ i, decode w = .ok i ∧ exec i (s.log (.cmd w)) = .next t := by
  simp only [acceptWord] at h
  split at h
  · rename_i e hd
    cases h
    exact .inl ⟨e, hd, rfl⟩
  · rename_i i hd
    exact .inr ⟨i, hd, h⟩

/-- Everything a step can do: a status read, a response handed over, a hardware reset, a word accepted, or the
sequencer's step, with the host's list as it was or one shorter. -/
theorem step_cases {s t : State} (h : step s = .next t) :
    (∃ n rest, s.host = .readSR n :: rest ∧
        t = { s with host := rest }.log (.readSR n (s.statusRegister n))) ∨
      (∃ r, s.rsp = some r ∧ t = s.deliver r) ∨
      (s.rsp = none ∧ ∃ rest, s.host = .rst :: rest ∧ s.seq = .idle ∧ s.held = false ∧
        t = { s with host := rest }.hardwareReset) ∨
      (s.rsp = none ∧ ∃ w rest, s.host = .cmd w :: rest ∧ s.seq = .idle ∧
        acceptWord w { s with host := rest } = .next t) ∨
      (s.rsp = none ∧ ∃ l, (l = s.host ∨ s.host = .pass :: l) ∧
        sequencerStep { s with host := l } = .next t) := by
  simp only [step, machineStep] at h
  split at h
  · split at h
    · rename_i hr
      cases h
      exact .inr (.inl ⟨_, hr, rfl⟩)
    · rename_i hr
      exact .inr (.inr (.inr (.inr ⟨hr, s.host, .inl rfl, h⟩)))
  · rename_i n rest hh
    simp only [hostStep, readStatus] at h
    cases h
    exact .inl ⟨n, rest, hh, rfl⟩
  · rename_i act rest _ hh
    split at h
    · rename_i hr
      cases h
      exact .inr (.inl ⟨_, hr, rfl⟩)
    · rename_i hr
      cases act with
      | readSR n =>
        simp only [hostStep, readStatus] at h
        cases h
        exact .inl ⟨n, rest, hh, rfl⟩
      | rst =>
        obtain ⟨h1, h2, h3⟩ := assertReset_cases h
        exact .inr (.inr (.inl ⟨hr, rest, hh, h1, h2, h3⟩))
      | pass => exact .inr (.inr (.inr (.inr ⟨hr, rest, .inr hh, h⟩)))
      | cmd w =>
        simp only [hostStep] at h
        split at h
        · rename_i hq
          exact .inr (.inr (.inr (.inl ⟨hr, w, rest, hh, hq, h⟩)))
        · exact .inr (.inr (.inr (.inr ⟨hr, s.host, .inl rfl, h⟩)))

end Sys2Proof.Machine
end

