-- ==== Sys2Proof/Laws/Exec.lean ====
section
/-! SUPPORT. What accepting a command can do, per command: its own `accept:` line, OutOfRange, or the lifecycle
check's rejection. -/

namespace Sys2Proof.Machine

/-- A rejection by the lifecycle check. -/
def Rejected (op : BitVec 4) (s t : State) : Prop :=
  ∃ e, (e = .badState ∨ e = .closed) ∧ t = s.respond op e 0

theorem execOpenCmd_cases {a : Nat} {s t : State} (h : execOpenCmd a s = .next t) :
    (s.st = .unopened ∧ t = (({ s with addr := BitVec.ofNat 7 a }.setSt .opening).goto .openSeq 0)) ∨
      Rejected 1 s t := by
  obtain ⟨hv, rfl⟩ | ⟨e, _, he, rfl⟩ := checked_cases h
  · refine .inl ⟨?_, rfl⟩
    revert hv
    cases s.st <;> simp [lifecycleVerdict]
  · exact .inr ⟨e, he, rfl⟩

/-- The five commands that run in READY. -/
theorem checked_ready_cases {op : BitVec 4} {s a t : State} (h : checked false op s a = .next t) :
    (s.st = .ready ∧ t = a) ∨ Rejected op s t := by
  obtain ⟨hv, rfl⟩ | ⟨e, _, he, rfl⟩ := checked_cases h
  · refine .inl ⟨?_, rfl⟩
    revert hv
    cases s.st <;> simp [lifecycleVerdict]
  · exact .inr ⟨e, he, rfl⟩

theorem execCloseCmd_cases {s t : State} (h : execCloseCmd s = .next t) :
    (s.st = .ready ∧ t = s.goto .closeSeq 0) ∨ Rejected 2 s t := checked_ready_cases h

theorem execResetCmd_cases {s t : State} (h : execResetCmd s = .next t) :
    (s.st = .ready ∧ t = s.goto .resetSeq 0) ∨ Rejected 3 s t := checked_ready_cases h

theorem execSetFreq_cases {hz : Nat} {s t : State} (h : execSetFreq hz s = .next t) :
    (s.st = .ready ∧ 40 ≤ hz ∧ hz ≤ 1000 ∧
        t = ((s.latchFreq (BitVec.ofNat 16 hz) (prescaleByte hz)).setSt .reconfiguring).goto .freqSeq 0) ∨
      (s.st = .ready ∧ t = s.respond 4 .outOfRange 0) ∨ Rejected 4 s t := by
  obtain ⟨hs, rfl⟩ | hr := checked_ready_cases h
  · split
    · rename_i hz
      obtain ⟨h1, h2⟩ := (inRange_iff _).1 hz
      exact .inl ⟨hs, h1, h2, rfl⟩
    · exact .inr (.inl ⟨hs, rfl⟩)
  · exact .inr (.inr hr)

theorem execSetCh_cases {ch : Nat} {inv : Bool} {duty : Int} {s t : State}
    (h : execSetCh ch inv duty s = .next t) :
    (s.st = .ready ∧ ch ≤ 15 ∧
        t = (s.latchPair (onTick inv duty) (offTick inv duty) (channelBase ch)).goto .chanSeq 0) ∨
      (s.st = .ready ∧ t = s.respond 5 .outOfRange 0) ∨ Rejected 5 s t := by
  obtain ⟨hs, rfl⟩ | hr := checked_ready_cases h
  · split
    · rename_i hc
      exact .inl ⟨hs, (channelValid_iff _).1 hc, rfl⟩
    · exact .inr (.inl ⟨hs, rfl⟩)
  · exact .inr (.inr hr)

theorem execSetAll_cases {inv : Bool} {duty : Int} {s t : State} (h : execSetAll inv duty s = .next t) :
    (s.st = .ready ∧ t = (s.latchPair (onTick inv duty) (offTick inv duty) Config.regAllLed).goto .allSeq 0) ∨
      Rejected 6 s t := checked_ready_cases h

end Sys2Proof.Machine
end

