-- ==== Sys2Proof/Laws/PerInstr.lean ====
section
/-! SUPPORT. Per command: its encoded word carries its operation code and lies in its row of R103. -/

namespace Sys2Proof.Laws.EncodesInRow

/-- A well-formed command's word has the row's OP and meets `w & mask = match` (R103). -/
def Statement (i : Instr) : Prop :=
  WellFormed i → opField (encode i) = opcodeOf i ∧ encode i &&& (tableRow i).2 = (tableRow i).1

theorem openCmd (addr7 : Nat) : Statement (.openCmd addr7) := by
  intro h
  simp only [WellFormed, Instr.wellFormed, addrFits, decide_eq_true_eq] at h
  exact ⟨by simp [encode, opcodeOf], (matches_open _).2 (by simp [encode, addr_high_zero h])⟩

theorem closeCmd : Statement .closeCmd := fun _ => by decide

theorem resetCmd : Statement .resetCmd := fun _ => by decide

theorem setFreq (hz : Nat) : Statement (.setFreq hz) := fun _ =>
  ⟨by simp [encode, opcodeOf], (matches_setFreq _).2 (by simp [encode])⟩

theorem setCh (ch : Nat) (inv : Bool) (duty : Int) : Statement (.setCh ch inv duty) := fun _ =>
  ⟨by simp [encode, opcodeOf], (matches_setCh _).2 (by simp [encode])⟩

theorem setAll (inv : Bool) (duty : Int) : Statement (.setAll inv duty) := fun _ =>
  ⟨by simp [encode, opcodeOf], (matches_setAll _).2 (by simp [encode])⟩

end Sys2Proof.Laws.EncodesInRow
end

