-- ==== Sys2Proof/Laws/Run.lean ====
section
/-! SUPPORT. Runs of several steps, and which part of the machine a step is while the host keeps quiet. -/

namespace Sys2Proof.Safety

open Sys2Proof.Machine

theorem run_zero (s : State) : runSteps 0 s = .next s := rfl

theorem run_succ {s t : State} {n : Nat} (h : step s = .next t) : runSteps (n + 1) s = runSteps n t := by
  have h' : core.step s = Host.Outcome.next t := h
  simp only [runSteps, Host.Core.run]
  rw [h']

theorem run_succ_fault {s : State} {f : Fault} {n : Nat} (h : step s = .fault f) :
    runSteps (n + 1) s = .fault f := by
  have h' : core.step s = Host.Outcome.fault f := h
  simp only [runSteps, Host.Core.run]
  rw [h']
  rfl

theorem run_succ_refused {s : State} {x : Refusal} {n : Nat} (h : step s = .refused x) :
    runSteps (n + 1) s = .refused x := by
  have h' : core.step s = Host.Outcome.refused x := h
  simp only [runSteps, Host.Core.run]
  rw [h']
  rfl

/-- A run of `a + b` steps is a run of `a` steps and then one of `b`. -/
theorem run_add {a b : Nat} {s t : State} (h : runSteps a s = .next t) : runSteps (a + b) s = runSteps b t := by
  induction a generalizing s with
  | zero =>
    rw [run_zero] at h
    cases h
    rw [Nat.zero_add]
  | succ a ih =>
    cases hs : step s with
    | next u =>
      rw [run_succ hs] at h
      rw [Nat.add_right_comm, run_succ hs]
      exact ih h
    | fault f =>
      rw [run_succ_fault hs] at h
      cases h
    | refused x =>
      rw [run_succ_refused hs] at h
      cases h

/-- While a sequence runs and the host keeps quiet, the step is the sequencer's. -/
theorem step_running {s : State} (h : Running s) : step s = sequencerStep s := by
  obtain ⟨hseq, hrsp, hhost⟩ := h
  simp only [step, machineStep]
  match hh : s.host, hhost with
  | [], _ => simp only [hrsp]
  | .cmd w :: later, _ => simp [hrsp, hostStep, hseq]

/-- A pending response is handed over while the host keeps quiet. -/
theorem step_deliver {s : State} {r : Word} (hhost : hostQuiet s.host = true) (hrsp : s.rsp = some r) :
    step s = .next (s.deliver r) := by
  simp only [step, machineStep]
  match hh : s.host, hhost with
  | [], _ => simp only [hrsp]
  | .cmd w :: later, _ => simp only [hrsp]

end Sys2Proof.Safety
end

