-- ==== Sys2Proof/Laws/Sequencer.lean ====
section
/-! SUPPORT. Which table entry a request kind can come from (R244), and what the tables write. -/

namespace Sys2Proof.Machine

/-- Only OPEN's first step acquires. -/
theorem micro_acq {s : State} (h : s.micro = some (.bus .acq)) : s.seq = .openSeq ∧ s.step = 0 := by
  have hk : s.step.toNat = 0 → s.step = 0 := fun e => BitVec.eq_of_toNat_eq e
  revert h
  simp only [State.micro]
  generalize s.step.toNat = k at hk
  cases s.seq <;> simp only [openStep, closeStep, resetWrite, freqStep, groupStep] <;> (repeat' split) <;> simp_all

/-- Only CLOSE's last step releases. -/
theorem micro_rel {s : State} (h : s.micro = some (.bus .rel)) : s.seq = .closeSeq ∧ s.step = 5 := by
  have hk : s.step.toNat = 5 → s.step = 5 := fun e => BitVec.eq_of_toNat_eq e
  revert h
  simp only [State.micro]
  generalize s.step.toNat = k at hk
  cases s.seq <;> simp only [openStep, closeStep, resetWrite, freqStep, groupStep] <;> (repeat' split) <;> simp_all

/-- Only SETFREQ's first step reads, and it reads MODE1 (R71). -/
theorem micro_rd8 {s : State} {reg : Byte} (h : s.micro = some (.bus (.rd8 reg))) :
    s.seq = .freqSeq ∧ s.step = 0 ∧ reg = Config.regMode1 := by
  have hk : s.step.toNat = 0 → s.step = 0 := fun e => BitVec.eq_of_toNat_eq e
  revert h
  simp only [State.micro]
  generalize s.step.toNat = k at hk
  cases s.seq <;> simp only [openStep, closeStep, resetWrite, freqStep, groupStep] <;> (repeat' split) <;> simp_all

/-- Only SETFREQ's step 4 is a delay. -/
theorem micro_delay {s : State} (h : s.micro = some .delay) : s.seq = .freqSeq ∧ s.step = 4 := by
  have hk : s.step.toNat = 4 → s.step = 4 := fun e => BitVec.eq_of_toNat_eq e
  revert h
  simp only [State.micro]
  generalize s.step.toNat = k at hk
  cases s.seq <;> simp only [openStep, closeStep, resetWrite, freqStep, groupStep] <;> (repeat' split) <;> simp_all

/-- Within its table a running sequence always has an entry. -/
theorem micro_isSome {s : State} (hs : s.seq ≠ .idle) (h : s.step.toNat ≤ s.seq.lastStep) : s.micro ≠ none := by
  revert h
  simp only [State.micro]
  generalize s.step.toNat = k
  cases hq : s.seq <;> simp only [SeqId.lastStep] <;> intro h
  · exact absurd hq hs
  all_goals
    interval_cases k <;> simp [openStep, closeStep, resetWrite, freqStep, groupStep]

end Sys2Proof.Machine
end

