-- ==== Sys2Proof/Tests/Slice0.lean ====
section
/-! SUPPORT. Tests: the well-formedness checks, words, functions and single steps from the spec's vectors
(95_test_vectors.md, 42_dutycycle.md R218, 41_frequency.md R179 and R180), and for every obligation with
hypotheses a concrete state that meets them all. -/

namespace Sys2Proof.Tests

open Sys2Proof.Machine Sys2Proof.Safety

/-! ### States -/

/-- Idle in the lifecycle state `x`, at bus address 0x40; in READY the handle has been acquired. -/
def idleAt (x : Lifecycle) : State :=
  match x with
  | .ready => { State.reset with st := .ready, held := true, addr := 0x40, events := [okTxn 0x40 .acq 0] }
  | _ => { State.reset with st := x, addr := 0x40 }

/-- The lifecycle state in which a sequence runs (R22). -/
def stOf (q : SeqId) : Lifecycle :=
  match q with
  | .idle => .unopened
  | .openSeq => .opening
  | .freqSeq => .reconfiguring
  | .closeSeq | .resetSeq | .chanSeq | .allSeq => .ready

/-- The sequence `q` at step `k`, with the latches of SETFREQ 50 and of duty 0. -/
def running (q : SeqId) (k : BitVec 3) : State :=
  { State.reset with
    st := stOf q
    seq := q
    step := k
    held := !(q == .openSeq && k == 0)
    addr := 0x40
    hzl := 50
    pre := 135
    off := 4095
    base := if q == .allSeq then 0xFA else 0x06
    events := .cmd 0 :: (if q == .openSeq && k == 0 then [] else [okTxn 0x40 .acq 0]) }

/-- The same with the request `op` outstanding and `l` the provider's answers. -/
def waiting (q : SeqId) (k : BitVec 3) (op : BusOp) (l : List BusRsp) : State :=
  { running q k with req := some { addr7 := 0x40, op := op }, bus := l }

/-- An answer without a byte. -/
def ans (x : BusStatus) : BusRsp := { status := x, rdata := 0 }

/-- The next state of an outcome, if it has one. -/
def next? (r : Result) : Option State :=
  match r with
  | .next t => some t
  | .fault _ => none
  | .refused _ => none

/-- The response pending after an outcome. -/
def rspOf (r : Result) : Option Word := (next? r).bind (·.rsp)

/-- The request outstanding after an outcome. -/
def reqOf (r : Result) : Option BusReq := (next? r).bind (·.req)

/-! ### Well-formedness: one ill-formed command for each check, and the last one that passes -/

theorem test_wf_addr : ¬WellFormed (.openCmd 128) ∧ WellFormed (.openCmd 127) := by decide
theorem test_wf_hz : ¬WellFormed (.setFreq 65536) ∧ WellFormed (.setFreq 65535) := by decide
theorem test_wf_ch : ¬WellFormed (.setCh 256 false 0) ∧ WellFormed (.setCh 255 false 0) := by decide
theorem test_wf_ch_duty :
    ¬WellFormed (.setCh 0 false 32768) ∧ ¬WellFormed (.setCh 0 false (-32769)) ∧
      WellFormed (.setCh 0 true (-32768)) := by decide
theorem test_wf_all_duty :
    ¬WellFormed (.setAll false 32768) ∧ ¬WellFormed (.setAll true (-32769)) ∧
      WellFormed (.setAll false 32767) := by decide

/-! ### Decoding (V14) and encoding (R113) -/

theorem test_decode_open :
    decode 0b00010000000000000000000001000000 = .ok (.openCmd 0x40) ∧
      decode 0x10000080 = .error .operandUnused := ⟨rfl, rfl⟩
theorem test_decode_close :
    decode 0b00100000000000000000000000000000 = .ok .closeCmd ∧
      decode 0x20000001 = .error .operandUnused := ⟨rfl, rfl⟩
theorem test_decode_reset :
    decode 0b00110000000000000000000000000000 = .ok .resetCmd ∧
      decode 0x30100000 = .error .channelUnused := ⟨rfl, rfl⟩
theorem test_decode_setfreq :
    decode 0b01000000000000000000000000110010 = .ok (.setFreq 50) ∧
      decode 0x40010032 = .error .polarityUnused := ⟨rfl, rfl⟩
theorem test_decode_setch :
    decode 0b01010000010100010000111111111111 = .ok (.setCh 5 true 4095) ∧
      decode 0x50580FFF = .error .zeroNotZero := ⟨rfl, rfl⟩
theorem test_decode_setall :
    decode 0b01100000000000001111111111111111 = .ok (.setAll false (-1)) ∧
      decode 0x60111000 = .error .channelUnused := ⟨rfl, rfl⟩
theorem test_decode_illegal :
    decode 0x70000000 = .error .badOpcode ∧ decode 0xFFFFFFFF = .error .badOpcode := ⟨rfl, rfl⟩
theorem test_encode_examples :
    encode (.setCh 5 false 4095) = 0x50500FFF ∧ encode (.setAll true 4096) = 0x60011000 ∧
      encode (.setFreq 50) = 0x40000032 ∧ encode (.setCh 3 false (-1)) = 0x5030FFFF := by decide

/-! ### The quantizer (R179), the MODE1 bytes (R180), the encoder (R218), the response word (V10) -/

theorem test_prescale_accepted :
    prescaleByte 40 = 169 ∧ prescaleByte 50 = 135 ∧ prescaleByte 333 = 19 ∧ prescaleByte 1000 = 6 := by decide
theorem test_prescale_outside :
    prescale 0 = none ∧ prescale 1 = some 255 ∧ prescale 27 = some 250 ∧ prescale 4522 = some 0 ∧
      prescale 13564 = some 0 := by decide
theorem test_mode1_bytes :
    sleepVariant 0x91 = 0x11 ∧ finalMode 0x91 = 0xB1 ∧ sleepVariant 0xFF = 0x7F ∧ finalMode 0x21 = 0xA1 := by decide
theorem test_encoder_normal :
    (onTick false 4096, offTick false 4096) = (4096, 0) ∧ (onTick false 4097, offTick false 4097) = (4095, 0) ∧
      (onTick false (-1), offTick false (-1)) = (0, 4095) ∧ (onTick false 255, offTick false 255) = (0, 255) := by
  decide
theorem test_encoder_inverted :
    (onTick true 0, offTick true 0) = (4095, 0) ∧ (onTick true 256, offTick true 256) = (0, 3839) ∧
      (onTick true 4095, offTick true 4095) = (0, 4095) ∧ (onTick true 4096, offTick true 4096) = (0, 4096) := by
  decide
theorem test_bytes : lowByte 3839 = 0xFF ∧ highByte 3839 = 0x0E ∧ lowByte 4096 = 0x00 ∧ highByte 4096 = 0x10 := by
  decide
theorem test_response_words :
    responseWord 4 .ok 450 = 0x0001C240 ∧ responseWord 5 .outOfRange 0 = 0x00000053 ∧
      responseWord 1 .ioFailure 0 = 0x00000014 := by decide

/-! ### Single steps -/

/-- V15: OPEN in READY answers 0x00000016. -/
theorem test_open_in_ready : rspOf (exec (.openCmd 0x41) (idleAt .ready)) = some 0x00000016 := by decide

/-- V16: OPEN's answer after a failed write and the release. -/
theorem test_open_released :
    rspOf (step (waiting .openSeq 3 .rel [ans .ok])) = some 0x00000014 := by decide

/-- P3: the two acquire failures answer 0x00000011 and 0x00000012. -/
theorem test_open_acquire_failures :
    rspOf (step (waiting .openSeq 0 .acq [ans .notFound])) = some 0x00000011 ∧
      rspOf (step (waiting .openSeq 0 .acq [ans .inUse])) = some 0x00000012 := by decide

/-- V15: a second CLOSE answers 0x00000025. -/
theorem test_close_twice : rspOf (exec .closeCmd (idleAt .closed)) = some 0x00000025 := by decide

/-- V16: a failed second write of CLOSE skips to step 5. -/
theorem test_close_swallows :
    (next? (step (waiting .closeSeq 1 (.wr8 0xFA 0) [ans .fail]))).map (fun t => (t.step, t.seq)) =
      some (5, .closeSeq) := by decide

/-- V16: RESET's third write fails: 0x00000034, READY, the handle held. -/
theorem test_reset_fails :
    (next? (step (waiting .resetSeq 2 (.wr8 0xFB 0) [ans .fail]))).map (fun t => (t.rsp, t.st, t.held)) =
      some (some 0x00000034, .ready, true) := by decide

/-- R140: the first write of the reset sequence is MODE1. -/
theorem test_reset_first_write :
    reqOf (step (running .resetSeq 0)) = some { addr7 := 0x40, op := .wr8 0x00 0x00 } := by decide

/-- V10: SETFREQ 50 latches 135; SETFREQ 1001 answers 0x00000043. -/
theorem test_setfreq :
    (next? (exec (.setFreq 50) (idleAt .ready))).map (fun t => (t.pre, t.st)) = some (135, .reconfiguring) ∧
      rspOf (exec (.setFreq 1001) (idleAt .ready)) = some 0x00000043 := by decide

/-- V10, P1: the last write's OK ends SETFREQ 50 with ACTUAL 450 and 0x0001C240. -/
theorem test_setfreq_done :
    (next? (step (waiting .freqSeq 5 (.wr8 0x00 0xA1) [ans .ok]))).map (fun t => (t.actual, t.rsp)) =
      some (450, some 0x0001C240) := by decide

/-- V13: SETCH 15 starts at 0x42; SETCH 62 answers 0x00000053. -/
theorem test_setch :
    (next? (exec (.setCh 15 false 1) (idleAt .ready))).map (fun t => (t.base, t.on, t.off)) = some (0x42, 0, 1) ∧
      rspOf (exec (.setCh 62 false 1) (idleAt .ready)) = some 0x00000053 := by decide

/-- R209: the fourth byte of duty 0 is 0x0F, to BASE + 3. -/
theorem test_setch_last_byte :
    reqOf (step (running .chanSeq 3)) = some { addr7 := 0x40, op := .wr8 0x09 0x0F } := by decide

/-- P2: SETALL 4096, INV ends with 0x10 to 0xFD. -/
theorem test_setall :
    (next? (exec (.setAll true 4096) (idleAt .ready))).map (fun t => (t.base, lowByte t.off, highByte t.off)) =
      some (0xFA, 0x00, 0x10) := by decide

/-- V16: SETALL's first write fails: 0x00000064. -/
theorem test_setall_fails :
    rspOf (step (waiting .allSeq 0 (.wr8 0xFA 0) [ans .fail])) = some 0x00000064 := by decide

/-- V14, V15: illegal words, in CLOSED and in UNOPENED. -/
theorem test_illegal_words :
    rspOf (step ((idleAt .closed).withFetchWord 32 0xFFFFFFFF)) = some 0x000000F7 ∧
      rspOf (step ((idleAt .unopened).withFetchWord 32 0x20000001)) = some 0x00000027 := by decide

/-- R110: the signals of SETFREQ's read and of its first write. -/
theorem test_channel_signals :
    (reqOf (step (running .freqSeq 0))).map (fun q => (q.kind, q.addr7, q.reg, q.wdata)) = some (3, 0x40, 0, 0) ∧
      (reqOf (step (running .freqSeq 2))).map (fun q => (q.kind, q.addr7, q.reg, q.wdata)) =
        some (2, 0x40, 0xFE, 0x87) := by decide

/-- R100, R108: a pending word is handed over before a presented command is accepted. -/
theorem test_response_first :
    (next? (step { idleAt .closed with rsp := some 0x00000020, host := [.cmd 0x20000000] })).map
        (fun t => (t.rsp, t.events.head?, t.host)) =
      some (none, some (.rsp 0x00000020), [.cmd 0x20000000]) := by decide

/-- V17: SR0 at five moments, and SR2 to SR5. -/
theorem test_status :
    State.reset.statusRegister 0 = 0 ∧ (running .openSeq 1).statusRegister 0 = 0x19 ∧
      (running .freqSeq 1).statusRegister 0 = 0x1B ∧
      ({ idleAt .ready with lastErr := .outOfRange } : State).statusRegister 0 = 0x72 ∧
      ({ idleAt .closed with lastErr := .closed } : State).statusRegister 0 = 0xA4 ∧
      State.reset.statusRegister 2 = 40 ∧ State.reset.statusRegister 3 = 1000 ∧
      State.reset.statusRegister 4 = 16 ∧ State.reset.statusRegister 5 = 0 := by decide

/-! ### Witnesses: for each obligation with hypotheses, states and operands that meet them -/

theorem witness_DecodeOfEncode :
    WellFormed (.openCmd 127) ∧ WellFormed .closeCmd ∧ WellFormed .resetCmd ∧ WellFormed (.setFreq 65535) ∧
      WellFormed (.setCh 255 true (-32768)) ∧ WellFormed (.setAll false 32767) := by decide

theorem witness_EncodeOfDecode : decode 0x5FF18000 = .ok (.setCh 255 true (-32768)) := rfl

/-- One word for each clause of the first part, and a state for the second. -/
theorem witness_IllegalWords :
    opField 0x00000000 = 0 ∧ 7 ≤ (opField 0x70000000).toNat ∧ zeroField 0x60020000 ≠ 0 ∧
      (opField 0x40100000 ≠ 5 ∧ chField 0x40100000 ≠ 0) ∧
      (opField 0x10010000 ≠ 5 ∧ opField 0x10010000 ≠ 6 ∧ invField 0x10010000 ≠ 0) ∧
      (opField 0x20000001 = 2 ∧ immField 0x20000001 ≠ 0) ∧ (opField 0x30008000 = 3 ∧ immField 0x30008000 ≠ 0) ∧
      (opField 0x10000080 = 1 ∧ (immField 0x10000080).extractLsb' 7 9 ≠ 0) ∧
      (State.reset.withFetchWord 32 0).seq = .idle ∧ (State.reset.withFetchWord 32 0).step = 0 ∧
      (State.reset.withFetchWord 32 0).rsp = none ∧ (State.reset.withFetchWord 32 0).host = .cmd 0 :: [] := by
  decide

theorem witness_IllegalWords_word : decode 0x00000000 = .error .badOpcode := rfl

theorem witness_StepRunsDecodedCommand :
    (State.reset.withFetchWord 32 0x10000040).seq = .idle ∧ (State.reset.withFetchWord 32 0x10000040).rsp = none ∧
      (State.reset.withFetchWord 32 0x10000040).host = .cmd 0x10000040 :: [] := by decide

theorem witness_StepRunsDecodedCommand_word :
    decode 0x10000040 = .ok (.openCmd 0x40) ∧ decode (encode (.openCmd 0x40)) = .ok (.openCmd 0x40) := ⟨rfl, rfl⟩

theorem witness_CommandWaitsWhileBusy :
    ({ running .resetSeq 0 with host := [.cmd 7] } : State).seq ≠ .idle ∧
      step { running .resetSeq 0 with host := [.cmd 7] } =
        .next { running .resetSeq 0 with
          host := [.cmd 7]
          req := some { addr7 := 0x40, op := .wr8 0x00 0x00 } } := ⟨by decide, rfl⟩

/-- One state for each clause. -/
theorem witness_LifecycleCheck :
    ((idleAt .closed).seq = .idle ∧ (idleAt .closed).step = 0 ∧ (idleAt .closed).st = .closed) ∧
      ((idleAt .unopened).seq = .idle ∧ (idleAt .unopened).st = .unopened ∧ opcodeOf .closeCmd ≠ 1 ∧
        opcodeOf (.openCmd 0) = 1) ∧
      (idleAt .ready).seq = .idle ∧ (idleAt .ready).st = .ready ∧ opcodeOf (.openCmd 127) = 1 ∧
      opcodeOf (.setFreq 39) ≠ 1 ∧ operandOutOfRange (.setFreq 39) = true ∧
      operandOutOfRange (.setFreq 1001) = true ∧ operandOutOfRange (.setFreq 40) = false ∧
      operandOutOfRange (.setFreq 1000) = false ∧ operandOutOfRange (.setCh 16 false 0) = true ∧
      operandOutOfRange (.setCh 15 false 0) = false := by decide

theorem witness_AcceptanceWhileTransientStops :
    (idleAt .opening).st = .opening ∧ (idleAt .reconfiguring).st = .reconfiguring := by decide

theorem witness_LifecycleCommandsAccepted :
    (idleAt .unopened).st = .unopened ∧ (idleAt .ready).st = .ready := by decide

/-- Both bounds of the range, and the values beside them. -/
theorem witness_SetFreqAccepted :
    (idleAt .ready).st = .ready ∧ (40 ≤ 40 ∧ 40 ≤ 1000) ∧ (40 ≤ 1000 ∧ 1000 ≤ 1000) ∧ (39 < 40 ∨ 1000 < 39) ∧
      (1001 < 40 ∨ 1000 < 1001) := by decide

theorem witness_DutyCommandsAccepted : (idleAt .ready).st = .ready ∧ 0 ≤ 15 ∧ 15 ≤ 15 ∧ 15 < 16 := by decide

/-- Acceptances under each of the frame's exceptions. -/
theorem witness_AcceptanceFrame :
    exec .closeCmd (idleAt .ready) = .next ((idleAt .ready).goto .closeSeq 0) ∧
      opcodeOf .closeCmd ≠ 1 ∧ opcodeOf .closeCmd ≠ 4 ∧ opcodeOf .closeCmd ≠ 5 ∧ opcodeOf .closeCmd ≠ 6 :=
  ⟨rfl, by decide⟩

/-- Both parts, with both failures. -/
theorem witness_OpenCommand :
    (idleAt .unopened).st = .unopened ∧ (idleAt .unopened).req = none ∧ (idleAt .unopened).rsp = none ∧
      hostQuiet (idleAt .unopened).host = true ∧
      ({ idleAt .unopened with bus := List.replicate 6 (ans .ok) } : State).bus =
        ans .ok :: ans .ok :: ans .ok :: ans .ok :: ans .ok :: ans .ok :: [] ∧
      ({ idleAt .unopened with bus := [ans .inUse] } : State).bus = ans .inUse :: [] := by decide

/-- The first and the last step. -/
theorem witness_OpenReleasesOnFailure :
    Running (waiting .openSeq 1 (.wr8 0x00 0) [ans .fail, ans .ok]) ∧
      Running (waiting .openSeq 5 (.wr8 0xFD 0) [ans .fail, ans .ok]) ∧
      (waiting .openSeq 5 (.wr8 0xFD 0) [ans .fail, ans .ok]).seq = .openSeq ∧
      1 ≤ (waiting .openSeq 1 (.wr8 0x00 0) [ans .fail, ans .ok]).step.toNat ∧
      (waiting .openSeq 5 (.wr8 0xFD 0) [ans .fail, ans .ok]).step.toNat ≤ 5 ∧
      (waiting .openSeq 5 (.wr8 0xFD 0) [ans .fail, ans .ok]).req = some { addr7 := 0x40, op := .wr8 0xFD 0 } := by
  decide

theorem witness_ResetCommand :
    (idleAt .ready).st = .ready ∧ (idleAt .ready).req = none ∧ (idleAt .ready).rsp = none ∧
      hostQuiet (idleAt .ready).host = true ∧
      ({ idleAt .ready with bus := List.replicate 5 (ans .ok) } : State).bus =
        ans .ok :: ans .ok :: ans .ok :: ans .ok :: ans .ok :: [] ∧
      Running (waiting .resetSeq 4 (.wr8 0xFD 0) [ans .fail]) ∧
      (waiting .resetSeq 4 (.wr8 0xFD 0) [ans .fail]).st = .ready ∧
      (waiting .resetSeq 4 (.wr8 0xFD 0) [ans .fail]).req = some { addr7 := 0x40, op := .wr8 0xFD 0 } ∧
      (waiting .resetSeq 4 (.wr8 0xFD 0) [ans .fail]).bus = ans .fail :: [] := by decide

theorem witness_CloseCommand :
    (idleAt .ready).st = .ready ∧ (idleAt .ready).req = none ∧ (idleAt .ready).rsp = none ∧
      hostQuiet (idleAt .ready).host = true ∧
      ({ idleAt .ready with bus := List.replicate 6 (ans .ok) } : State).bus =
        ans .ok :: ans .ok :: ans .ok :: ans .ok :: ans .ok :: ans .ok :: [] := by decide

theorem witness_CloseSwallowsFailure :
    Running (waiting .closeSeq 0 (.wr8 0x00 0) [ans .fail, ans .ok]) ∧
      (waiting .closeSeq 0 (.wr8 0x00 0) [ans .fail, ans .ok]).seq = .closeSeq ∧
      (waiting .closeSeq 0 (.wr8 0x00 0) [ans .fail, ans .ok]).req = some { addr7 := 0x40, op := .wr8 0x00 0 } ∧
      (waiting .closeSeq 0 (.wr8 0x00 0) [ans .fail, ans .ok]).bus = ans .fail :: ans .ok :: [] := by decide

/-- The clocks of the delay in one step, and after a step without one. -/
theorem witness_SetFreqCommand_clocks :
    (([] : List Nat).sum < Config.settleCycles ∧ Config.settleCycles ≤ ([] : List Nat).sum + Config.settleCycles) ∧
      [0].sum < Config.settleCycles ∧ Config.settleCycles ≤ [0].sum + Config.settleCycles :=
  have h : ∀ n : Nat, 1 ≤ n →
      (([] : List Nat).sum < n ∧ n ≤ ([] : List Nat).sum + n) ∧ [0].sum < n ∧ n ≤ [0].sum + n := by
    intro n hn
    simp
    omega
  h _ Config.settleCycles_pos

theorem witness_SetFreqCommand :
    (idleAt .ready).st = .ready ∧ (idleAt .ready).req = none ∧ (idleAt .ready).rsp = none ∧
      hostQuiet (idleAt .ready).host = true ∧ (40 ≤ 40 ∧ 1000 ≤ 1000) ∧
      ({ idleAt .ready with bus := List.replicate 5 (ans .ok) } : State).bus =
        ans .ok :: ans .ok :: ans .ok :: ans .ok :: ans .ok :: [] := by decide

/-- A failed read and a failed write. -/
theorem witness_SetFreqFailure :
    Running (waiting .freqSeq 0 (.rd8 0x00) [ans .fail]) ∧ Running (waiting .freqSeq 5 (.wr8 0x00 0xA1) [ans .fail]) ∧
      (waiting .freqSeq 0 (.rd8 0x00) [ans .fail]).seq = .freqSeq ∧
      (waiting .freqSeq 0 (.rd8 0x00) [ans .fail]).req = some { addr7 := 0x40, op := .rd8 0x00 } ∧
      (waiting .freqSeq 0 (.rd8 0x00) [ans .fail]).bus = ans .fail :: [] ∧
      (waiting .freqSeq 5 (.wr8 0x00 0xA1) [ans .fail]).req = some { addr7 := 0x40, op := .wr8 0x00 0xA1 } := by
  decide

/-- The channels 0 and 15 with four answers. -/
theorem witness_SetChCommand :
    (idleAt .ready).st = .ready ∧ (idleAt .ready).req = none ∧ (idleAt .ready).rsp = none ∧
      hostQuiet (idleAt .ready).host = true ∧ 0 ≤ 15 ∧ 15 ≤ 15 ∧
      ({ idleAt .ready with bus := List.replicate 4 (ans .ok) } : State).bus =
        ans .ok :: ans .ok :: ans .ok :: ans .ok :: [] := by decide

theorem witness_SetAllCommand :
    (idleAt .ready).st = .ready ∧ (idleAt .ready).req = none ∧ (idleAt .ready).rsp = none ∧
      hostQuiet (idleAt .ready).host = true ∧
      ({ idleAt .ready with bus := List.replicate 4 (ans .ok) } : State).bus =
        ans .ok :: ans .ok :: ans .ok :: ans .ok :: [] := by decide

/-- Both commands. -/
theorem witness_WriteGroupFailure :
    Running (waiting .chanSeq 1 (.wr8 0x07 0) [ans .fail]) ∧ Running (waiting .allSeq 3 (.wr8 0xFD 0) [ans .fail]) ∧
      (waiting .chanSeq 1 (.wr8 0x07 0) [ans .fail]).seq = .chanSeq ∧
      (waiting .allSeq 3 (.wr8 0xFD 0) [ans .fail]).seq = .allSeq ∧
      (waiting .chanSeq 1 (.wr8 0x07 0) [ans .fail]).st = .ready ∧
      (waiting .allSeq 3 (.wr8 0xFD 0) [ans .fail]).st = .ready ∧
      (waiting .chanSeq 1 (.wr8 0x07 0) [ans .fail]).req = some { addr7 := 0x40, op := .wr8 0x07 0 } ∧
      (waiting .chanSeq 1 (.wr8 0x07 0) [ans .fail]).bus = ans .fail :: [] := by decide

/-- A state for each of the five clauses, at a first or a last step. -/
theorem witness_MicroSequenceTables :
    (Running (running .openSeq 5) ∧ (running .openSeq 5).req = none ∧ (running .openSeq 5).step.toNat = 5 ∧
        (running .openSeq 5).seq = .openSeq) ∧
      (Running (running .closeSeq 5) ∧ (running .closeSeq 5).req = none ∧ (running .closeSeq 5).seq = .closeSeq) ∧
      (Running (running .resetSeq 0) ∧ (running .resetSeq 0).req = none ∧ (running .resetSeq 0).seq = .resetSeq) ∧
      (Running (running .freqSeq 5) ∧ (running .freqSeq 5).req = none ∧ (running .freqSeq 5).seq = .freqSeq) ∧
      (Running (running .chanSeq 0) ∧ (running .chanSeq 0).req = none ∧ (running .chanSeq 0).seq = .chanSeq) ∧
      (Running (running .allSeq 3) ∧ (running .allSeq 3).req = none ∧ (running .allSeq 3).seq = .allSeq) ∧
      Running (running .freqSeq 4) ∧ (running .freqSeq 4).step = 4 := by decide

theorem witness_WaitsForTheProvider :
    Running (waiting .openSeq 0 .acq []) ∧ (waiting .openSeq 0 .acq []).req = some { addr7 := 0x40, op := .acq } ∧
      (waiting .openSeq 0 .acq []).bus = [] := by decide

/-- A state for each clause on the right, and one whose answer is allowed. -/
theorem witness_ProviderContract :
    Running (waiting .openSeq 0 .acq [ans .fail]) ∧ Running (waiting .closeSeq 5 .rel [ans .inUse]) ∧
      Running (waiting .freqSeq 0 (.rd8 0) [ans .notFound]) ∧ Running (waiting .openSeq 0 .acq [ans .inUse]) ∧
      (waiting .openSeq 0 .acq [ans .fail]).bus = ans .fail :: [] ∧
      (waiting .openSeq 0 .acq [ans .fail]).req = some { addr7 := 0x40, op := .acq } := by decide

theorem witness_AnsweredTransactions :
    Running (waiting .freqSeq 0 (.rd8 0) [⟨.ok, 0x91⟩]) ∧
      (waiting .freqSeq 0 (.rd8 0) [⟨.ok, 0x91⟩]).req = some { addr7 := 0x40, op := .rd8 0 } ∧
      (waiting .freqSeq 0 (.rd8 0) [⟨.ok, 0x91⟩]).bus = ⟨.ok, 0x91⟩ :: [] ∧
      (next? (step (waiting .freqSeq 0 (.rd8 0) [⟨.ok, 0x91⟩]))).isSome = true ∧
      Running (waiting .freqSeq 1 (.wr8 0 0x11) [ans .ok]) ∧
      (next? (step (waiting .freqSeq 1 (.wr8 0 0x11) [ans .ok]))).isSome = true := by decide

/-- A step that stores, with a key it does not store to, and a failing one with its whole group. -/
theorem witness_DeviceFrame :
    (next? (step (waiting .chanSeq 1 (.wr8 0x07 0) [ans .ok]))).isSome = true ∧
      deviceKey 0x40 0x08 ∉ storedKeys (waiting .chanSeq 1 (.wr8 0x07 0) [ans .ok]) ∧
      deviceKey 0x40 0x07 ∈ storedKeys (waiting .chanSeq 1 (.wr8 0x07 0) [ans .ok]) ∧
      (next? (step (waiting .chanSeq 1 (.wr8 0x07 0) [ans .fail]))).isSome = true ∧
      deviceKey 0x40 0x0A ∉ storedKeys (waiting .chanSeq 1 (.wr8 0x07 0) [ans .fail]) ∧
      deviceKey 0x40 0x09 ∈ storedKeys (waiting .chanSeq 1 (.wr8 0x07 0) [ans .fail]) := by decide

/-- A state under each of the frame's conditions. -/
theorem witness_SequencerFrame :
    Running (waiting .chanSeq 1 (.wr8 0x07 0) [ans .ok]) ∧
      (next? (step (waiting .chanSeq 1 (.wr8 0x07 0) [ans .ok]))).isSome = true ∧
      (waiting .chanSeq 1 (.wr8 0x07 0) [ans .ok]).seq ≠ .freqSeq ∧
      ¬((waiting .chanSeq 1 (.wr8 0x07 0) [ans .ok]).seq = .freqSeq ∧
        (waiting .chanSeq 1 (.wr8 0x07 0) [ans .ok]).step = 5) ∧
      (next? (step (waiting .chanSeq 1 (.wr8 0x07 0) [ans .ok]))).map (·.seq) = some .chanSeq ∧
      (next? (step (waiting .chanSeq 3 (.wr8 0x09 0x0F) [ans .ok]))).map (·.seq) = some .idle := by decide

/-- The three clauses: unchanged, hardware reset, a successful SETFREQ. -/
theorem witness_ActualWrittenOnlyOnSuccess :
    (next? (step (running .chanSeq 0))).isSome = true ∧
      (next? (step { State.reset with host := [.rst], actual := 450 })).map (·.actual) = some 0 ∧
      (next? (step (waiting .freqSeq 5 (.wr8 0 0xA1) [ans .ok]))).map (·.actual) = some 450 := by decide

theorem witness_SettleDelay :
    Running (waiting .freqSeq 3 (.wr8 0 0) [ans .ok]) ∧ (waiting .freqSeq 3 (.wr8 0 0) [ans .ok]).seq = .freqSeq ∧
      (waiting .freqSeq 3 (.wr8 0 0) [ans .ok]).step = 3 ∧
      (waiting .freqSeq 3 (.wr8 0 0) [ans .ok]).req = some { addr7 := 0x40, op := .wr8 0 0 } ∧
      (waiting .freqSeq 3 (.wr8 0 0) [ans .ok]).bus = ans .ok :: [] ∧
      Running { running .freqSeq 4 with tmr := 3, clk := [2, 1, 9] } ∧
      ({ running .freqSeq 4 with tmr := 3, clk := [2, 1, 9] } : State).step = 4 ∧
      ({ running .freqSeq 4 with tmr := 3, clk := [2, 1, 9] } : State).req = none ∧
      ({ running .freqSeq 4 with tmr := 3, clk := [2, 1, 9] } : State).clk = [2] ++ 1 :: [9] ∧ [2].sum < 3 ∧
      3 ≤ [2].sum + 1 ∧ 2 < 3 ∧ 3 ≤ 3 := by decide

/-- R291: a clock of two counted off TMR, the end of the delay, and a step in which no time passes. -/
theorem test_delay :
    (next? (step { running .freqSeq 4 with tmr := 3, clk := [2, 1] })).map (fun t => (t.tmr, t.step)) =
        some (1, 4) ∧
      (next? (step { running .freqSeq 4 with tmr := 1, clk := [1] })).map (fun t => (t.tmr, t.step)) =
        some (0, 5) ∧
      (next? (step { running .freqSeq 4 with tmr := 1 })).map (fun t => (t.tmr, t.step)) = some (1, 4) := by decide

/-- Too few clocks to come, and none at all. -/
theorem witness_DelayMayNeverEnd :
    Running { running .freqSeq 4 with tmr := 3, clk := [2] } ∧ (running .freqSeq 4).seq = .freqSeq ∧
      (running .freqSeq 4).step = 4 ∧ (running .freqSeq 4).req = none ∧ [2].sum < 3 ∧
      Running (running .freqSeq 4) ∧ (running .freqSeq 4).clk = [] := by decide

/-- Two states in SETFREQ's step 1 that read 0x00 and 0x91, with their writes outstanding; and two before the read,
with the two bytes to be answered. -/
theorem witness_ReadByteDecidesDataOnly :
    AlikeButForReadBytes (waiting .freqSeq 1 (.wr8 0x00 0x10) [ans .ok])
        { waiting .freqSeq 1 (.wr8 0x00 0x11) [ans .ok] with old := 0x91 } ∧
      AlikeButForReadBytes (waiting .freqSeq 0 (.rd8 0x00) [⟨.ok, 0x00⟩])
        (waiting .freqSeq 0 (.rd8 0x00) [⟨.ok, 0x91⟩]) :=
  have same : ∀ l : List Event, List.Forall₂ eventAlike l l := fun _ => List.forall₂_same.2 fun _ _ => .inl rfl
  ⟨⟨rfl, .inr ⟨0x40, _, _, rfl, rfl, .inr ⟨0x10, 0x11, rfl, rfl⟩⟩, same _, rfl, fun _ _ => rfl⟩,
    rfl, .inl rfl, same _, rfl, fun _ _ => rfl⟩

theorem witness_SettleDelay_step : (next? (step (waiting .freqSeq 3 (.wr8 0 0) [ans .ok]))).isSome = true := by
  decide

/-- An issue, an answer, a failure and the delay. -/
theorem witness_SequencesMoveForward :
    (Inv (running .openSeq 0) ∧ Running (running .openSeq 0) ∧ answerReady (running .openSeq 0) = true) ∧
      (Inv (waiting .allSeq 3 (.wr8 0xFD 0x0F) [ans .ok]) ∧ Running (waiting .allSeq 3 (.wr8 0xFD 0x0F) [ans .ok]) ∧
        answerReady (waiting .allSeq 3 (.wr8 0xFD 0x0F) [ans .ok]) = true) ∧
      (Inv (waiting .openSeq 5 (.wr8 0xFD 0) [ans .fail]) ∧ Running (waiting .openSeq 5 (.wr8 0xFD 0) [ans .fail]) ∧
        answerReady (waiting .openSeq 5 (.wr8 0xFD 0) [ans .fail]) = true) ∧
      Inv { running .freqSeq 4 with tmr := 7, clk := [1] } ∧ Running { running .freqSeq 4 with tmr := 7, clk := [1] } ∧
      answerReady { running .freqSeq 4 with tmr := 7, clk := [1] } = true ∧
      timePasses { running .freqSeq 4 with tmr := 7, clk := [1] } = true := by decide

theorem witness_SequencesMoveForward_time :
    timePasses (running .openSeq 0) = true ∧ timePasses (waiting .allSeq 3 (.wr8 0xFD 0x0F) [ans .ok]) = true ∧
      timePasses (waiting .openSeq 5 (.wr8 0xFD 0) [ans .fail]) = true := by decide

theorem witness_StatusRegisters :
    (5 : BitVec 3).toNat = 5 ∧ (7 : BitVec 3).toNat = 7 ∧ ({ running .freqSeq 4 with host := [.readSR 1] } : State).host = .readSR 1 :: [] := by decide

theorem witness_ResponseWordFields : decode 0x1000007F = .ok (.openCmd 127) := rfl

theorem witness_ResponseWordFields_equal : responseWord 1 .deviceBusy 0 = responseWord 1 .deviceBusy 0 := rfl

/-- A pending response with a command presented and with a status read before it, and an acceptance. -/
theorem witness_ResponsePort :
    (({ idleAt .closed with rsp := some 7, host := [.cmd 0] } : State).rsp = some 7 ∧
        ∀ n later, ({ idleAt .closed with rsp := some 7, host := [.cmd 0] } : State).host ≠ .readSR n :: later) ∧
      ({ idleAt .closed with rsp := some 7, host := [.readSR 0] } : State).rsp = some 7 ∧
      ({ idleAt .closed with rsp := some 7, host := [.readSR 0] } : State).host = .readSR 0 :: [] ∧
      (next? (step (State.reset.withFetchWord 32 0))).map (·.events) = some [.cmd 0] :=
  ⟨⟨rfl, by simp⟩, rfl, rfl, by decide⟩

/-- Unchanged by an answered step that does not end the command, cleared by hardware reset, and written at a
command's end, when a response becomes pending. -/
theorem witness_LastErrorWrittenAtCompletion :
    (next? (step { waiting .chanSeq 1 (.wr8 0x07 0) [ans .ok] with lastErr := .closed })).map
        (fun t => (t.lastErr, t.rsp)) = some (.closed, none) ∧
      (next? (step { idleAt .closed with lastErr := .closed, host := [.rst] })).map (·.lastErr) = some .ok ∧
      (waiting .chanSeq 1 (.wr8 0x07 0) [ans .fail]).rsp = none ∧
      (next? (step (waiting .chanSeq 1 (.wr8 0x07 0) [ans .fail]))).map (fun t => (t.lastErr, t.rsp)) =
        some (.ioFailure, some 0x00000054) := by decide

theorem witness_HardwareReset :
    ({ idleAt .closed with host := [.rst] } : State).rsp = none ∧
      ({ idleAt .closed with host := [.rst] } : State).seq = .idle ∧
      ({ idleAt .closed with host := [.rst] } : State).held = false ∧
      ({ idleAt .closed with host := [.rst] } : State).host = .rst :: [] := by decide

/-- Each side of the disjunction alone: busy without a handle, and idle with one. -/
theorem witness_HardwareResetRefused :
    (({ running .openSeq 0 with host := [.rst] } : State).rsp = none ∧
        ({ running .openSeq 0 with host := [.rst] } : State).seq ≠ .idle ∧
        ({ running .openSeq 0 with host := [.rst] } : State).held = false) ∧
      ({ idleAt .ready with host := [.rst] } : State).rsp = none ∧
      ({ idleAt .ready with host := [.rst] } : State).seq = .idle ∧
      ({ idleAt .ready with host := [.rst] } : State).held = true ∧
      ({ idleAt .ready with host := [.rst] } : State).host = .rst :: [] := by decide

theorem witness_QuantizerMeetsFormula : 1 ≤ 1 ∧ 1 ≤ 65535 := by decide
theorem witness_QuantizerRanges : 40 ≤ 40 ∧ 40 ≤ 1000 ∧ 40 ≤ 1000 ∧ 1000 ≤ 1000 := by decide
theorem witness_QuantizerHasNoTies : 1 ≤ 1 := by decide

/-- Each row's range at its ends. -/
theorem witness_EncoderTable :
    (-1 : Int) < 0 ∧ (4096 : Int) < 4097 ∧ ((0 : Int) ≤ 0 ∧ (0 : Int) ≤ 4096) ∧ (1 ≤ 1 ∧ 1 ≤ 4094) ∧
      (1 ≤ 4094 ∧ 4094 ≤ 4094) := by decide

theorem witness_TruncatedDutyNormalizes :
    ((0 : ℚ) ≤ 4096 ∧ ¬((4096 : ℚ) < 4096 ∧ (4096 : ℚ) < 4097)) ∧
      (0 : ℚ) ≤ 4097 ∧ ¬((4096 : ℚ) < 4097 ∧ (4097 : ℚ) < 4097) := by decide

theorem witness_PolarityLaw : 0 ≤ 4095 ∧ 4095 ≤ 4095 := by decide

theorem witness_ChannelAddresses :
    0 ≤ 15 ∧ 15 ≤ 15 ∧ 0 ≠ 15 ∧ (0 : Byte).toNat ≤ 3 ∧ (3 : Byte).toNat ≤ 3 := by decide

/-- Idle, and running at each kind of step. -/
theorem witness_StepKeepsInvariant :
    Inv (idleAt .ready) ∧ Inv (running .freqSeq 0) ∧ Inv (waiting .closeSeq 5 .rel [ans .ok]) ∧
      (next? (step (idleAt .ready))).isSome = true ∧ (next? (step (running .freqSeq 0))).isSome = true ∧
      (next? (step (waiting .closeSeq 5 .rel [ans .ok]))).isSome = true := by decide

theorem witness_StepKeepsDeviceListCanonical :
    Memory.wf (waiting .chanSeq 1 (.wr8 0x07 0) [ans .fail]).dev = true ∧
      (next? (step (waiting .chanSeq 1 (.wr8 0x07 0) [ans .fail]))).isSome = true := by decide

/-- Both refusals are reached from states that meet the invariant. -/
theorem witness_StopsOnlyWhereTheSpecRefuses :
    Inv { idleAt .ready with host := [.rst] } ∧
      step { idleAt .ready with host := [.rst] } = .refused .resetOutsideIdle ∧
      Inv (waiting .openSeq 0 .acq [ans .fail]) ∧
      step (waiting .openSeq 0 .acq [ans .fail]) = .refused .providerContract :=
  ⟨by decide, rfl, by decide, rfl⟩

/-- Every transition of R247 happens from a state that meets the invariant: reset, OPEN's acceptance, its two
ways back and its success. -/
theorem witness_LifecycleTransitions :
    (Inv { idleAt .closed with host := [.rst] } ∧
        (next? (step { idleAt .closed with host := [.rst] })).map (·.st) = some .unopened) ∧
      (Inv { idleAt .unopened with host := [.cmd 0x10000040] } ∧
        (next? (step { idleAt .unopened with host := [.cmd 0x10000040] })).map (·.st) = some .opening) ∧
      (Inv (waiting .openSeq 0 .acq [ans .inUse]) ∧
        (next? (step (waiting .openSeq 0 .acq [ans .inUse]))).map (·.st) = some .unopened) ∧
      (Inv (waiting .openSeq 1 .rel [ans .ok]) ∧
        (next? (step (waiting .openSeq 1 .rel [ans .ok]))).map (·.st) = some .unopened) ∧
      Inv (waiting .openSeq 5 (.wr8 0xFD 0) [ans .ok]) ∧
      (next? (step (waiting .openSeq 5 (.wr8 0xFD 0) [ans .ok]))).map (·.st) = some .ready := by decide

/-- SETFREQ's acceptance, its end and its failure, and CLOSE's release. -/
theorem witness_LifecycleTransitions_ready :
    (Inv { idleAt .ready with host := [.cmd 0x40000032] } ∧
        (next? (step { idleAt .ready with host := [.cmd 0x40000032] })).map (·.st) = some .reconfiguring) ∧
      (Inv (waiting .freqSeq 5 (.wr8 0 0xA1) [ans .ok]) ∧
        (next? (step (waiting .freqSeq 5 (.wr8 0 0xA1) [ans .ok]))).map (·.st) = some .ready) ∧
      (Inv (waiting .freqSeq 0 (.rd8 0) [ans .fail]) ∧
        (next? (step (waiting .freqSeq 0 (.rd8 0) [ans .fail]))).map (·.st) = some .ready) ∧
      Inv (waiting .closeSeq 5 .rel [ans .ok]) ∧
      (next? (step (waiting .closeSeq 5 .rel [ans .ok]))).map (·.st) = some .closed := by decide

/-- A command and a hardware reset in CLOSED. -/
theorem witness_ClosedIsFinal :
    (Inv { idleAt .closed with host := [.cmd 0x10000040] } ∧
        (next? (step { idleAt .closed with host := [.cmd 0x10000040] })).map (·.st) = some .closed) ∧
      Inv { idleAt .closed with host := [.rst] } ∧ (idleAt .closed).st = .closed ∧
      (next? (step { idleAt .closed with host := [.rst] })).map (·.st) = some .unopened := by decide

/-- A request of each kind, and OPEN's release. -/
theorem witness_RequestsTheBlockMakes :
    (Inv (running .openSeq 0) ∧ reqOf (step (running .openSeq 0)) = some ⟨0x40, .acq⟩ ∧
        (running .openSeq 0).req ≠ some ⟨0x40, .acq⟩) ∧
      (Inv (running .closeSeq 5) ∧ reqOf (step (running .closeSeq 5)) = some ⟨0x40, .rel⟩) ∧
      (Inv (waiting .openSeq 1 (.wr8 0 0) [ans .fail]) ∧
        reqOf (step (waiting .openSeq 1 (.wr8 0 0) [ans .fail])) = some ⟨0x40, .rel⟩) ∧
      (Inv (running .freqSeq 0) ∧ reqOf (step (running .freqSeq 0)) = some ⟨0x40, .rd8 0x00⟩) ∧
      Inv (running .chanSeq 0) ∧ reqOf (step (running .chanSeq 0)) = some ⟨0x40, .wr8 0x06 0x00⟩ := by decide

end Sys2Proof.Tests
end

section
/-! Where LASTERR is written (R31): one step either keeps LASTERR and the response port, or ends a command by
`State.respond`, which writes LASTERR and the response word from the same error. -/

namespace Sys2Proof.Machine

/-- The block is idle and the response pending carries LASTERR, as `State.respond` leaves it. -/
def Responded (t : State) : Prop :=
  t.seq = .idle ∧ t.step = 0 ∧ ∃ op r, t.rsp = some (responseWord op t.lastErr r)

/-- From `s` to `t` either neither LASTERR nor the response port changes, or a command ends. -/
def KeepsOrResponds (s t : State) : Prop :=
  (t.lastErr = s.lastErr ∧ t.rsp = s.rsp) ∨ Responded t

theorem respond_responded (s : State) (op : BitVec 4) (e : ErrKind) (r : BitVec 16) :
    Responded (s.respond op e r) := ⟨rfl, rfl, op, r, rfl⟩

/-- Only LASTERR and the response port of the state before count. -/
theorem KeepsOrResponds.of_agree {s u t : State} (h : KeepsOrResponds u t) (hlast : u.lastErr = s.lastErr)
    (hrsp : u.rsp = s.rsp) : KeepsOrResponds s t := by
  rwa [KeepsOrResponds, ← hlast, ← hrsp]

theorem Rejected.responded {op : BitVec 4} {s t : State} (h : Rejected op s t) : Responded t := by
  obtain ⟨e, -, rfl⟩ := h
  exact respond_responded ..

/-! ### The sequencer -/

theorem finish_responded {s t : State} (h : finish s = .next t) : Responded t := by
  obtain ⟨-, rfl⟩ | ⟨-, rfl⟩ | ⟨-, rfl⟩ := finish_cases h <;> exact respond_responded ..

theorem stepDone_keepsOrResponds {s t : State} (h : stepDone s = .next t) : KeepsOrResponds s t := by
  obtain ⟨-, hfin⟩ | ⟨-, rfl⟩ := stepDone_cases h
  · exact .inr (finish_responded hfin)
  · exact .inl ⟨rfl, rfl⟩

/-- On a FAIL, OPEN and CLOSE go on to their release; the other commands end. -/
theorem failed_keepsOrResponds {s t : State} (h : failed s = .next t) : KeepsOrResponds s t := by
  obtain ⟨-, rfl⟩ | ⟨-, rfl⟩ | ⟨-, rfl⟩ | ⟨-, rfl⟩ := failed_cases h
  · exact .inl ⟨rfl, rfl⟩
  · exact .inl ⟨rfl, rfl⟩
  · exact .inr (respond_responded ..)
  · exact .inr (respond_responded ..)

theorem relAnswered_responded {s t : State} (h : relAnswered s = .next t) : Responded t := by
  obtain ⟨-, rfl⟩ | ⟨-, rfl⟩ := relAnswered_cases h <;> exact respond_responded ..

theorem acqAnswered_keepsOrResponds {x : BusStatus} {s t : State} (h : acqAnswered x s = .next t) :
    KeepsOrResponds s t := by
  obtain ⟨-, hdone⟩ | ⟨-, rfl⟩ | ⟨-, rfl⟩ := acqAnswered_cases h
  · exact (stepDone_keepsOrResponds hdone).of_agree rfl rfl
  · exact .inr (respond_responded ..)
  · exact .inr (respond_responded ..)

theorem answerEffect_keepsOrResponds {q : BusReq} {a : BusRsp} {s t : State}
    (h : answerEffect q a s = .next t) : KeepsOrResponds s t := by
  obtain ⟨-, hacq⟩ | ⟨-, hrel⟩ | ⟨reg, val, -, -, hwrite⟩ | ⟨reg, -, -, hread⟩ | ⟨-, -, hfail⟩ :=
    answerEffect_cases h
  · exact acqAnswered_keepsOrResponds hacq
  · exact .inr (relAnswered_responded hrel)
  · exact (stepDone_keepsOrResponds hwrite).of_agree rfl rfl
  · exact (stepDone_keepsOrResponds hread).of_agree rfl rfl
  · exact (failed_keepsOrResponds hfail).of_agree (State.devForgetAll_lastErr ..) (State.devForgetAll_rsp ..)

theorem awaitAnswer_keepsOrResponds {q : BusReq} {s t : State} (h : awaitAnswer q s = .next t) :
    KeepsOrResponds s t := by
  obtain ⟨-, rfl⟩ | ⟨a, rest, -, -, heffect⟩ := awaitAnswer_cases h
  · exact .inl ⟨rfl, rfl⟩
  · exact (answerEffect_keepsOrResponds heffect).of_agree rfl rfl

theorem countDown_keeps {s t : State} (h : countDown s = .next t) :
    t.lastErr = s.lastErr ∧ t.rsp = s.rsp := by
  obtain ⟨-, rfl⟩ | ⟨c, later, -, ⟨-, rfl⟩ | ⟨-, rfl⟩⟩ := countDown_cases h <;> exact ⟨rfl, rfl⟩

theorem issue_keeps {s t : State} (h : issue s = .next t) : t.lastErr = s.lastErr ∧ t.rsp = s.rsp := by
  obtain ⟨op, -, rfl⟩ | ⟨-, hdelay⟩ := issue_cases h
  · exact ⟨rfl, rfl⟩
  · exact countDown_keeps hdelay

theorem sequencerStep_keepsOrResponds {s t : State} (h : sequencerStep s = .next t) :
    KeepsOrResponds s t := by
  obtain ⟨-, rfl⟩ | ⟨-, ⟨q, -, hawait⟩ | ⟨-, hissue⟩⟩ := sequencerStep_cases h
  · exact .inl ⟨rfl, rfl⟩
  · exact awaitAnswer_keepsOrResponds hawait
  · exact .inl (issue_keeps hissue)

/-! ### Accepting a word -/

/-- An accepted command starts its sequence, or is rejected on the spot with a response. -/
theorem exec_keepsOrResponds {i : Instr} {s t : State} (h : exec i s = .next t) : KeepsOrResponds s t := by
  cases i with
  | openCmd addr7 =>
    obtain ⟨-, rfl⟩ | hrej := execOpenCmd_cases h
    · exact .inl ⟨rfl, rfl⟩
    · exact .inr hrej.responded
  | closeCmd =>
    obtain ⟨-, rfl⟩ | hrej := execCloseCmd_cases h
    · exact .inl ⟨rfl, rfl⟩
    · exact .inr hrej.responded
  | resetCmd =>
    obtain ⟨-, rfl⟩ | hrej := execResetCmd_cases h
    · exact .inl ⟨rfl, rfl⟩
    · exact .inr hrej.responded
  | setFreq hz =>
    obtain ⟨-, -, -, rfl⟩ | ⟨-, rfl⟩ | hrej := execSetFreq_cases h
    · exact .inl ⟨rfl, rfl⟩
    · exact .inr (respond_responded ..)
    · exact .inr hrej.responded
  | setCh ch inv duty =>
    obtain ⟨-, -, rfl⟩ | ⟨-, rfl⟩ | hrej := execSetCh_cases h
    · exact .inl ⟨rfl, rfl⟩
    · exact .inr (respond_responded ..)
    · exact .inr hrej.responded
  | setAll inv duty =>
    obtain ⟨-, rfl⟩ | hrej := execSetAll_cases h
    · exact .inl ⟨rfl, rfl⟩
    · exact .inr hrej.responded

theorem acceptWord_keepsOrResponds {w : Word} {s t : State} (h : acceptWord w s = .next t) :
    KeepsOrResponds s t := by
  obtain ⟨e, -, rfl⟩ | ⟨i, -, hexec⟩ := acceptWord_cases h
  · exact .inr (respond_responded ..)
  · exact (exec_keepsOrResponds hexec).of_agree rfl rfl

/-! ### The machine's step -/

/-- A status read and the hand-over of a response keep LASTERR and make no response pending; hardware reset sets
LASTERR to OK; every other step runs with no response pending and keeps LASTERR or ends a command. -/
theorem step_lastErr_cases {s t : State} (h : step s = .next t) :
    (t.lastErr = s.lastErr ∧ (t.rsp = s.rsp ∨ t.rsp = none)) ∨
      (s.rsp = none ∧ t.rsp = none ∧ t.lastErr = .ok ∧ ∃ later, s.host = .rst :: later) ∨
      (s.rsp = none ∧ KeepsOrResponds s t) := by
  obtain ⟨n, rest, -, rfl⟩ | ⟨r, -, rfl⟩ | ⟨hrsp, rest, hhost, -, -, rfl⟩ |
    ⟨hrsp, w, rest, -, -, haccept⟩ | ⟨hrsp, l, -, hseq⟩ := step_cases h
  · exact .inl ⟨rfl, .inl rfl⟩
  · exact .inl ⟨rfl, .inr rfl⟩
  · exact .inr (.inl ⟨hrsp, hrsp, rfl, rest, hhost⟩)
  · exact .inr (.inr ⟨hrsp, (acceptWord_keepsOrResponds haccept).of_agree rfl rfl⟩)
  · exact .inr (.inr ⟨hrsp, (sequencerStep_keepsOrResponds hseq).of_agree rfl rfl⟩)

/-- Settles O35, by what a step can do to LASTERR and the response port. -/
theorem lastErrorWrittenAtCompletion : Obligations.LastErrorWrittenAtCompletion := by
  intro s t h
  obtain ⟨hlast, hport⟩ | ⟨-, hnone, hok, hrst⟩ | ⟨hs, ⟨hlast, hsame⟩ | ⟨hseq, hstep, op, r, hresp⟩⟩ :=
    step_lastErr_cases h
  · refine ⟨.inl hlast, fun w hs ht => ?_⟩
    have hnone : t.rsp = none := hport.elim (fun hsame => hsame.trans hs) id
    simp [hnone] at ht
  · exact ⟨.inr (.inl ⟨hok, hrst⟩), fun w _ ht => by simp [hnone] at ht⟩
  · exact ⟨.inl hlast, fun w _ ht => by simp [hsame, hs] at ht⟩
  · exact ⟨.inr (.inr ⟨hs, hseq, hstep, op, r, hresp⟩), fun w _ ht =>
      ⟨op, r, Option.some.inj (ht.symm.trans hresp)⟩⟩

end Sys2Proof.Machine
end

section
/-! The addresses of a channel's four registers (R68, R70), as numbers. -/

namespace Sys2Proof.Machine

/-- R68: the register at offset `j` of a channel's group; the addition does not wrap. -/
theorem channelBase_add_toNat {n : Nat} (hn : n ≤ 15) {j : Byte} (hj : j.toNat ≤ 3) :
    (channelBase n + j).toNat = 6 + 4 * n + j.toNat := by
  rw [channelBase_eq, BitVec.toNat_add, BitVec.toNat_ofNat]
  omega

/-- R70: one register belongs to one channel, whose number is its address less 6, divided by 4. -/
theorem channelBase_add_ne {n m : Nat} (hn : n ≤ 15) (hm : m ≤ 15) (hne : m ≠ n) {j k : Byte}
    (hj : j.toNat ≤ 3) (hk : k.toNat ≤ 3) : channelBase n + j ≠ channelBase m + k := by
  intro heq
  have hnum : 6 + 4 * n + j.toNat = 6 + 4 * m + k.toNat := by
    rw [← channelBase_add_toNat hn hj, ← channelBase_add_toNat hm hk, heq]
  omega

/-- Settles O49, by the number of the register at each offset of a channel's group. -/
theorem channelAddresses : Obligations.ChannelAddresses := by
  intro n hn
  have hreg (j : Byte) (hj : j.toNat ≤ 3) := channelBase_add_toNat hn hj
  have h0 : (channelBase n).toNat = 6 + 4 * n := by simpa using hreg 0 (by decide)
  have h1 : (channelBase n + 1).toNat = 6 + 4 * n + 1 := hreg 1 (by decide)
  have h2 : (channelBase n + 2).toNat = 6 + 4 * n + 2 := hreg 2 (by decide)
  have h3 : (channelBase n + 3).toNat = 6 + 4 * n + 3 := hreg 3 (by decide)
  refine ⟨h0, by omega, by omega, by omega, by omega, ?_⟩
  intro m hm hne j k hj hk
  exact channelBase_add_ne hn hm hne hj hk

end Sys2Proof.Machine
end

section
/-! The words outside the opcode map as conditions on their fields (R103, R109), and the step that accepts a word. -/

namespace Sys2Proof

/-- The mask of OPEN's row leaves `IMM16[15:7]`. -/
theorem and_addrMask_eq_zero_iff (x : BitVec 16) : x &&& 0xFF80 = 0 ↔ x.extractLsb' 7 9 = 0 := by
  have hsplit : x.extractLsb' 7 9 ++ x.extractLsb' 0 7 = x :=
    (BitVec.extractLsb'_append_extractLsb'_eq_extractLsb' (Nat.zero_add 7).symm).trans BitVec.extractLsb'_eq_self
  calc x &&& 0xFF80 = 0
      ↔ (x.extractLsb' 7 9 ++ x.extractLsb' 0 7) &&& (0x1FF#9 ++ 0#7) = 0#9 ++ 0#7 := by rw [hsplit]; rfl
    _ ↔ x.extractLsb' 7 9 &&& 0x1FF#9 = 0#9 ∧ x.extractLsb' 0 7 &&& 0#7 = 0#7 := by
        rw [BitVec.and_append, append_inj]
    _ ↔ x.extractLsb' 7 9 = 0 := by
        rw [and_allOnes' _ 0x1FF#9 (by decide), BitVec.and_zero]; exact and_iff_left rfl

/-- The rows of R103 as conditions on the fields: the word is in the opcode map. -/
def InOpcodeMap (w : Word) : Prop :=
  (opField w = 1 ∧ chField w = 0 ∧ zeroField w = 0 ∧ invField w = 0 ∧ (immField w).extractLsb' 7 9 = 0) ∨
    (opField w = 2 ∧ chField w = 0 ∧ zeroField w = 0 ∧ invField w = 0 ∧ immField w = 0) ∨
    (opField w = 3 ∧ chField w = 0 ∧ zeroField w = 0 ∧ invField w = 0 ∧ immField w = 0) ∨
    (opField w = 4 ∧ chField w = 0 ∧ zeroField w = 0 ∧ invField w = 0) ∨
    (opField w = 5 ∧ zeroField w = 0) ∨
    (opField w = 6 ∧ chField w = 0 ∧ zeroField w = 0)

/-- R112: the decoder rejects a word exactly when no row matches it. -/
theorem decode_error_iff_not_inOpcodeMap (w : Word) : (∃ e, decode w = .error e) ↔ ¬InOpcodeMap w := by
  simp only [decode, matches_open, matches_close, matches_reset, matches_setFreq, matches_setCh, matches_setAll,
    and_addrMask_eq_zero_iff, InOpcodeMap]
  split_ifs <;> simp_all

/-- `OP` names one of the six commands, or R109 lists it. -/
theorem opcode_cases (op : BitVec 4) :
    (op = 0 ∨ 7 ≤ op.toNat) ∨ op = 1 ∨ op = 2 ∨ op = 3 ∨ op = 4 ∨ op = 5 ∨ op = 6 := by
  revert op
  decide

/-- R109's list, the negation of R103's rows: for each opcode the fields its format does not use. -/
theorem not_inOpcodeMap_iff (w : Word) :
    ¬InOpcodeMap w ↔
      (opField w = 0 ∨ 7 ≤ (opField w).toNat ∨ zeroField w ≠ 0 ∨ (opField w ≠ 5 ∧ chField w ≠ 0) ∨
        (opField w ≠ 5 ∧ opField w ≠ 6 ∧ invField w ≠ 0) ∨
        ((opField w = 2 ∨ opField w = 3) ∧ immField w ≠ 0) ∨
        (opField w = 1 ∧ (immField w).extractLsb' 7 9 ≠ 0)) := by
  obtain (hop | hop) | hop | hop | hop | hop | hop | hop := opcode_cases (opField w)
  · simp [InOpcodeMap, hop]
  · have hne (k : BitVec 4) (hk : k.toNat < 7) : opField w ≠ k := by
      rintro rfl
      omega
    simp [InOpcodeMap, hop, hne]
  all_goals simp [InOpcodeMap, hop, imp_iff_not_or, or_assoc, or_comm]

end Sys2Proof

namespace Sys2Proof.Machine

/-- R241: a ready block accepts the word the host presents. -/
theorem step_accepts_word {s : State} {w : Word} {later : List HostAct} (hseq : s.seq = .idle)
    (hrsp : s.rsp = none) (hhost : s.host = .cmd w :: later) :
    step s = acceptWord w { s with host := later } := by
  simp only [step, machineStep, hhost, hrsp, hostStep, hseq, if_true]

theorem acceptWord_illegal {w : Word} {e : Illegal} (h : decode w = .error e) (s : State) :
    acceptWord w s = .next ((s.log (.cmd w)).respond (opField w) .illegalCommand 0) := by
  simp only [acceptWord, h]

/-- In an idle block a response changes LASTERR and the response port only. -/
theorem State.respond_of_idle {s : State} (hseq : s.seq = .idle) (hstep : s.step = 0) (op : BitVec 4) (e : ErrKind)
    (r : BitVec 16) : s.respond op e r = { s with lastErr := e, rsp := some (responseWord op e r) } := by
  rw [State.respond, ← hseq, ← hstep]

/-- Settles O4: the illegal words are those outside R103's rows, read field by field; accepting one is a response
of an idle block. -/
theorem illegalWords : Obligations.IllegalWords := by
  refine ⟨fun w => (decode_error_iff_not_inOpcodeMap w).trans (not_inOpcodeMap_iff w), ?_⟩
  intro s w later e hseq hstep hrsp hhost hillegal
  rw [step_accepts_word hseq hrsp hhost, acceptWord_illegal hillegal]
  exact congrArg _ (State.respond_of_idle (s := State.log { s with host := later } (.cmd w)) hseq hstep ..)

end Sys2Proof.Machine
end

section
/-! Transactions as part of a run: a request goes out in one step and its answer takes effect in the next (R60,
R243); a response is handed over. -/

namespace Sys2Proof.Safety

open Sys2Proof.Machine

/-- Some number of steps leads from `s` to `t`. -/
def Reaches (s t : State) : Prop := ∃ n, runSteps n s = .next t

theorem Reaches.of_step {s t : State} (h : step s = .next t) : Reaches s t :=
  ⟨1, (run_succ h).trans (run_zero t)⟩

theorem Reaches.trans {s t u : State} (hst : Reaches s t) (htu : Reaches t u) : Reaches s u := by
  obtain ⟨a, ha⟩ := hst
  obtain ⟨b, hb⟩ := htu
  exact ⟨a + b, (run_add ha).trans hb⟩

theorem step_issue {s : State} {op : BusOp} (hrun : Running s) (hreq : s.req = none)
    (hmicro : s.micro = some (.bus op)) : step s = .next (s.request op) := by
  rw [step_running hrun]
  simp only [sequencerStep, if_neg hrun.1, hreq, issue, hmicro]

theorem step_answer {s : State} {q : BusReq} {a : BusRsp} {rest : List BusRsp} (hrun : Running s)
    (hreq : s.req = some q) (hbus : s.bus = a :: rest) (hallowed : statusAllowed q.op a.status = true) :
    step s = answerEffect q a (s.answered q a rest) := by
  rw [step_running hrun]
  simp only [sequencerStep, if_neg hrun.1, hreq, awaitAnswer, hbus, hallowed, if_true]

/-- The transaction of the current table entry, from its issue to the effect of its answer. -/
theorem reaches_transaction {s t : State} {op : BusOp} {a : BusRsp} {rest : List BusRsp} (hrun : Running s)
    (hreq : s.req = none) (hmicro : s.micro = some (.bus op)) (hbus : s.bus = a :: rest)
    (hallowed : statusAllowed op a.status = true)
    (heffect : answerEffect ⟨s.addr, op⟩ a (s.answered ⟨s.addr, op⟩ a rest) = .next t) : Reaches s t :=
  (Reaches.of_step (step_issue hrun hreq hmicro)).trans
    (.of_step ((step_answer (s := s.request op) hrun rfl hbus hallowed).trans heffect))

/-- The end of a command as the host sees it: the response is handed over. -/
theorem reaches_delivered {s : State} {w : Word} (hhost : hostQuiet s.host = true) (hrsp : s.rsp = some w) :
    Reaches s (s.deliver w) :=
  .of_step (step_deliver hhost hrsp)

end Sys2Proof.Safety
end

section
/-! The reset sequence (R140) in the table of the command that runs it: OPEN, RESET or CLOSE. -/

namespace Sys2Proof.Machine

/-- A reset write to `reg` answered OK, before the sequence moves on. -/
def State.resetWrote (s : State) (reg r : Byte) (rest : List BusRsp) : State :=
  (s.answered ⟨s.addr, .wr8 reg 0⟩ ⟨.ok, r⟩ rest).devWrite s.addr reg 0

/-- The step after a reset write answered OK. -/
def State.resetNext (s : State) (reg r : Byte) (rest : List BusRsp) : State :=
  { s.resetWrote reg r rest with step := s.step + 1 }

/-- The five writes of the reset sequence answered OK, at its last step, before the command moves on. -/
def State.resetWritten (s : State) (r0 r1 r2 r3 r4 : Byte) (rest : List BusRsp) : State :=
  { s with
    step := s.step + 1 + 1 + 1 + 1
    req := none
    bus := rest
    dev :=
      Memory.write (Memory.write (Memory.write (Memory.write (Memory.write s.dev
        (deviceKey s.addr 0x00) 0) (deviceKey s.addr 0xFA) 0) (deviceKey s.addr 0xFB) 0)
        (deviceKey s.addr 0xFC) 0) (deviceKey s.addr 0xFD) 0
    events :=
      .txn ⟨s.addr, .wr8 0xFD 0⟩ ⟨.ok, r4⟩ :: .txn ⟨s.addr, .wr8 0xFC 0⟩ ⟨.ok, r3⟩ ::
        .txn ⟨s.addr, .wr8 0xFB 0⟩ ⟨.ok, r2⟩ :: .txn ⟨s.addr, .wr8 0xFA 0⟩ ⟨.ok, r1⟩ ::
        .txn ⟨s.addr, .wr8 0x00 0⟩ ⟨.ok, r0⟩ :: s.events }

/-- The five writes one after the other; each names the answers after it, and the last of these lists remains. -/
theorem State.resetWritten_eq (s : State) (r0 r1 r2 r3 r4 : Byte) (l0 l1 l2 l3 rest : List BusRsp) :
    (((((s.resetNext 0x00 r0 l0).resetNext 0xFA r1 l1).resetNext 0xFB r2 l2).resetNext 0xFC r3 l3).resetWrote
      0xFD r4 rest) = s.resetWritten r0 r1 r2 r3 r4 rest := by
  simp only [State.resetNext, State.resetWrote, State.answered, State.devWrite, State.resetWritten]

end Sys2Proof.Machine

namespace Sys2Proof.Safety

open Sys2Proof.Machine

/-- Step `k` of the command `q` is the `i`-th write of the reset sequence: in OPEN these are steps 1 to 5, in RESET
and CLOSE steps 0 to 4 (R244). -/
def IsResetWrite (i : Nat) (q : SeqId) (k : BitVec 3) : Prop :=
  (q = .openSeq ∧ k.toNat = i + 1) ∨ ((q = .resetSeq ∨ q = .closeSeq) ∧ k.toNat = i)

theorem IsResetWrite.succ {i : Nat} {q : SeqId} {k : BitVec 3} (h : IsResetWrite i q k) (hi : i < 4) :
    IsResetWrite (i + 1) q (k + 1) := by
  have hnext (hk : k.toNat ≤ 4) : (k + 1).toNat = k.toNat + 1 := by
    rw [BitVec.toNat_add]
    exact Nat.mod_eq_of_lt (show k.toNat + 1 < 8 by omega)
  obtain ⟨hq, hk⟩ | ⟨hq, hk⟩ := h
  · exact .inl ⟨hq, by rw [hnext (by omega), hk]⟩
  · exact .inr ⟨hq, by rw [hnext (by omega), hk]⟩

theorem micro_of_isResetWrite {i : Nat} {s : State} (h : IsResetWrite i s.seq s.step) (hi : i ≤ 4) :
    s.micro = resetWrite i := by
  obtain ⟨hseq, hstep⟩ | ⟨hseq | hseq, hstep⟩ := h
  · simp only [State.micro, hseq, hstep, openStep]
  · simp only [State.micro, hseq, hstep]
  · simp only [State.micro, hseq, hstep, closeStep, if_neg (show i ≠ 5 by omega)]

/-- Before its last write the reset sequence is not at the end of a table. -/
theorem stepDone_of_isResetWrite {i : Nat} {s : State} (h : IsResetWrite i s.seq s.step) (hi : i < 4) :
    stepDone s = .next { s with step := s.step + 1 } := by
  have hlast : s.step.toNat ≠ s.seq.lastStep := by
    obtain ⟨hseq, hstep⟩ | ⟨hseq | hseq, hstep⟩ := h <;> simp only [hseq, hstep, SeqId.lastStep] <;> omega
  have hfreq : s.seq ≠ .freqSeq := by
    obtain ⟨hseq, -⟩ | ⟨hseq | hseq, -⟩ := h <;> simp [hseq]
  simp only [stepDone, if_neg hlast, State.nextStep, hfreq, false_and, if_false]

/-- The block is about to issue the `i`-th write of the reset sequence. -/
structure AtResetWrite (i : Nat) (s : State) : Prop where
  running : Running s
  req : s.req = none
  entry : IsResetWrite i s.seq s.step

theorem reaches_resetWrite {s t : State} {i : Nat} {reg r : Byte} {rest : List BusRsp} (h : AtResetWrite i s)
    (hi : i ≤ 4) (hwrite : resetWrite i = some (.bus (.wr8 reg 0))) (hbus : s.bus = ⟨.ok, r⟩ :: rest)
    (hdone : stepDone (s.resetWrote reg r rest) = .next t) : Reaches s t :=
  reaches_transaction h.running h.req ((micro_of_isResetWrite h.entry hi).trans hwrite) hbus rfl hdone

/-- A write of the reset sequence but the last leads to the next one. -/
theorem reaches_resetNext {s : State} {i : Nat} {reg r : Byte} {rest : List BusRsp} (h : AtResetWrite i s)
    (hi : i < 4) (hwrite : resetWrite i = some (.bus (.wr8 reg 0))) (hbus : s.bus = ⟨.ok, r⟩ :: rest) :
    Reaches s (s.resetNext reg r rest) ∧ AtResetWrite (i + 1) (s.resetNext reg r rest) := by
  have hdone := stepDone_of_isResetWrite (s := s.resetWrote reg r rest) h.entry hi
  exact ⟨reaches_resetWrite h hi.le hwrite hbus hdone, h.running, rfl, h.entry.succ hi⟩

/-- The reset sequence with every answer OK, from its first write to what the command does after the last. -/
theorem reaches_resetSequence {s t : State} {r0 r1 r2 r3 r4 : Byte} {rest : List BusRsp} (h0 : AtResetWrite 0 s)
    (hbus : s.bus = ⟨.ok, r0⟩ :: ⟨.ok, r1⟩ :: ⟨.ok, r2⟩ :: ⟨.ok, r3⟩ :: ⟨.ok, r4⟩ :: rest)
    (hdone : stepDone (s.resetWritten r0 r1 r2 r3 r4 rest) = .next t) : Reaches s t := by
  obtain ⟨hreach0, h1⟩ := reaches_resetNext (reg := 0x00) h0 (by decide) rfl hbus
  obtain ⟨hreach1, h2⟩ := reaches_resetNext (reg := 0xFA) h1 (by decide) rfl rfl
  obtain ⟨hreach2, h3⟩ := reaches_resetNext (reg := 0xFB) h2 (by decide) rfl rfl
  obtain ⟨hreach3, h4⟩ := reaches_resetNext (reg := 0xFC) h3 (by decide) rfl rfl
  have hreach4 := reaches_resetWrite (reg := 0xFD) h4 (by decide) rfl rfl (by rwa [State.resetWritten_eq])
  exact hreach0.trans (hreach1.trans (hreach2.trans (hreach3.trans hreach4)))

end Sys2Proof.Safety
end

section
/-! The whole of OPEN (R141, R142). -/

namespace Sys2Proof.Machine

/-- OPEN's `accept:` line (R141). -/
def State.opening (s : State) (a : BusAddr) : State :=
  { s with addr := a, st := .opening, seq := .openSeq, step := 0 }

/-- OPEN's ACQ answered OK: the handle is held, the reset sequence is next. -/
def State.acquired (s : State) (r : Byte) (rest : List BusRsp) : State :=
  { s.answered ⟨s.addr, .acq⟩ ⟨.ok, r⟩ rest with held := true, step := 1 }

/-- A failed ACQ: UNOPENED and the error (R142). -/
def State.notAcquired (s : State) (x : BusStatus) (e : ErrKind) (r : Byte) (rest : List BusRsp) : State :=
  ((s.answered ⟨s.addr, .acq⟩ ⟨x, r⟩ rest).setSt .unopened).respond 1 e 0

end Sys2Proof.Machine

namespace Sys2Proof.Safety

open Sys2Proof.Machine

theorem exec_openCmd_unopened {s : State} (hst : s.st = .unopened) (a : Nat) :
    exec (.openCmd a) s = .next (s.opening (BitVec.ofNat 7 a)) := by
  simp only [exec, execOpenCmd, checked, hst, lifecycleVerdict, if_true]
  rfl

section
variable {s : State} {a : BusAddr} {r : Byte} {rest : List BusRsp}

theorem running_opening (hrsp : s.rsp = none) (hhost : hostQuiet s.host = true) : Running (s.opening a) :=
  ⟨nofun, hrsp, hhost⟩

theorem reaches_acquired (hrun : Running (s.opening a)) (hreq : s.req = none) (hbus : s.bus = ⟨.ok, r⟩ :: rest) :
    Reaches (s.opening a) ((s.opening a).acquired r rest) :=
  reaches_transaction hrun hreq rfl hbus rfl rfl

theorem reaches_notAcquired {x : BusStatus} {e : ErrKind} (hrun : Running (s.opening a)) (hreq : s.req = none)
    (hbus : s.bus = ⟨x, r⟩ :: rest)
    (hfail : (x = .notFound ∧ e = .deviceUnavailable) ∨ (x = .inUse ∧ e = .deviceBusy)) :
    Reaches (s.opening a) ((s.opening a).notAcquired x e r rest) := by
  obtain ⟨rfl, rfl⟩ | ⟨rfl, rfl⟩ := hfail <;> exact reaches_transaction hrun hreq rfl hbus rfl rfl

theorem reaches_opened {r0 r1 r2 r3 r4 r5 : Byte} (hrun : Running (s.opening a)) (hreq : s.req = none)
    (hbus : s.bus = ⟨.ok, r0⟩ :: ⟨.ok, r1⟩ :: ⟨.ok, r2⟩ :: ⟨.ok, r3⟩ :: ⟨.ok, r4⟩ :: ⟨.ok, r5⟩ :: rest) :
    Reaches (s.opening a)
      (((((s.opening a).acquired r0 rest).resetWritten r1 r2 r3 r4 r5 rest).setSt .ready).respond 1 .ok 0) := by
  refine .trans (reaches_acquired hrun hreq hbus) ?_
  exact reaches_resetSequence ⟨hrun, rfl, .inl ⟨rfl, rfl⟩⟩ rfl rfl

end

/-- Settles O13: ACQ, then the reset sequence, then the response; or ACQ's failure and its response. -/
theorem openCommand : Obligations.OpenCommand := by
  intro s a hst hreq hrsp hhost
  have hrun : Running (s.opening (BitVec.ofNat 7 a)) := running_opening hrsp hhost
  constructor
  · intro r0 r1 r2 r3 r4 r5 rest hbus
    obtain ⟨n, hn⟩ := (reaches_opened hrun hreq hbus).trans (reaches_delivered hhost rfl)
    refine ⟨_, n, exec_openCmd_unopened hst a, hn.trans ?_⟩
    rw [hreq, hrsp]
    rfl
  · intro x e r rest hfail hbus
    obtain ⟨n, hn⟩ := (reaches_notAcquired hrun hreq hbus hfail).trans (reaches_delivered hhost rfl)
    refine ⟨_, n, exec_openCmd_unopened hst a, hn.trans ?_⟩
    rw [hreq, hrsp]
    rfl

end Sys2Proof.Safety
end

section
/-! A FAIL in the reset sequence of OPEN or CLOSE (R143, R147): the release follows at once and ends the command. -/

namespace Sys2Proof.Machine

/-- A FAIL answers the request `q`: the group's registers take any value (R65). -/
def State.afterFail (s : State) (q : BusReq) (r : Byte) (rest : List BusRsp) : State :=
  (s.answered q ⟨.fail, r⟩ rest).devForgetAll q.addr7 s.group

section
variable (s : State) (q : BusReq) (r : Byte) (l : List BusRsp)

@[simp] theorem State.afterFail_seq : (s.afterFail q r l).seq = s.seq := State.devForgetAll_seq ..
@[simp] theorem State.afterFail_addr : (s.afterFail q r l).addr = s.addr := State.devForgetAll_addr ..
@[simp] theorem State.afterFail_actual : (s.afterFail q r l).actual = s.actual := State.devForgetAll_actual ..
@[simp] theorem State.afterFail_req : (s.afterFail q r l).req = none := State.devForgetAll_req ..
@[simp] theorem State.afterFail_rsp : (s.afterFail q r l).rsp = s.rsp := State.devForgetAll_rsp ..
@[simp] theorem State.afterFail_host : (s.afterFail q r l).host = s.host := State.devForgetAll_host ..
@[simp] theorem State.afterFail_bus : (s.afterFail q r l).bus = l := State.devForgetAll_bus ..
@[simp] theorem State.afterFail_events : (s.afterFail q r l).events = .txn q ⟨.fail, r⟩ :: s.events :=
  State.devForgetAll_events ..

end

/-- R65: a FAIL leaves the registers outside the command's group alone. -/
theorem State.read_afterFail_other {s : State} {q : BusReq} {r : Byte} {l : List BusRsp} {k : Nat}
    (hk : k ∉ s.group.map (deviceKey q.addr7)) :
    Memory.read (s.afterFail q r l).dev k = Memory.read s.dev k :=
  State.devForgetAll_read_other hk

/-- The REL to ADDR is answered, HELD falls, ST becomes `x`, and the command's response is handed over. -/
def State.released (s : State) (x : Lifecycle) (op : BitVec 4) (e : ErrKind) (r : Byte) (rest : List BusRsp) :
    State :=
  (({ s.answered ⟨s.addr, .rel⟩ ⟨.ok, r⟩ rest with held := false }.setSt x).respond op e 0).deliver
    (responseWord op e 0)

theorem relAnswered_openSeq {s : State} (hseq : s.seq = .openSeq) :
    relAnswered s = .next (({ s with held := false }.setSt .unopened).respond 1 .ioFailure 0) := by
  simp only [relAnswered, hseq]
  rfl

theorem relAnswered_closeSeq {s : State} (hseq : s.seq = .closeSeq) :
    relAnswered s = .next (({ s with held := false }.setSt .closed).respond 2 .ok 0) := by
  simp only [relAnswered, hseq]
  rfl

end Sys2Proof.Machine

namespace Sys2Proof.Safety

open Sys2Proof.Machine

theorem step_writeFailed {s : State} {q : BusReq} {reg val r : Byte} {rest : List BusRsp} (hrun : Running s)
    (hreq : s.req = some q) (hop : q.op = .wr8 reg val) (hbus : s.bus = ⟨.fail, r⟩ :: rest) :
    step s = failed (s.afterFail q r rest) := by
  rw [step_answer hrun hreq hbus (by rw [hop]; rfl)]
  simp only [answerEffect, hop]
  rfl

theorem running_afterFail {s : State} (hrun : Running s) (q : BusReq) (r : Byte) (rest : List BusRsp) :
    Running (s.afterFail q r rest) := by
  simpa only [Running, State.afterFail_seq, State.afterFail_rsp, State.afterFail_host] using hrun

/-- With REL outstanding: its answer, then the response handed over. -/
theorem reaches_released {s : State} {x : Lifecycle} {op : BitVec 4} {e : ErrKind} {r : Byte} {rest : List BusRsp}
    (hrun : Running s) (hreq : s.req = some ⟨s.addr, .rel⟩) (hbus : s.bus = ⟨.ok, r⟩ :: rest)
    (hrel : relAnswered (s.answered ⟨s.addr, .rel⟩ ⟨.ok, r⟩ rest) =
      .next (({ s.answered ⟨s.addr, .rel⟩ ⟨.ok, r⟩ rest with held := false }.setSt x).respond op e 0)) :
    Reaches s (s.released x op e r rest) :=
  (Reaches.of_step ((step_answer hrun hreq hbus rfl).trans hrel)).trans (reaches_delivered hrun.2.2 rfl)

section
variable {s : State} {q : BusReq} {reg val r r' : Byte} {rest : List BusRsp}

theorem reaches_openReleased (hrun : Running s) (hseq : s.seq = .openSeq) (hreq : s.req = some q)
    (hop : q.op = .wr8 reg val) (hbus : s.bus = ⟨.fail, r⟩ :: ⟨.ok, r'⟩ :: rest) :
    Reaches s ((s.afterFail q r (⟨.ok, r'⟩ :: rest)).released .unopened 1 .ioFailure r' rest) := by
  have hseq' : (s.afterFail q r (⟨.ok, r'⟩ :: rest)).seq = .openSeq := (State.afterFail_seq ..).trans hseq
  have hfail : step s = .next ((s.afterFail q r (⟨.ok, r'⟩ :: rest)).request .rel) := by
    rw [step_writeFailed hrun hreq hop hbus]
    simp only [failed, hseq']
  refine .trans (.of_step hfail) ?_
  exact reaches_released (s := State.request _ _) (running_afterFail hrun ..) rfl
    (by simp) (relAnswered_openSeq hseq')

/-- CLOSE skips to its release (R147). -/
theorem reaches_closeReleased (hrun : Running s) (hseq : s.seq = .closeSeq) (hreq : s.req = some q)
    (hop : q.op = .wr8 reg val) (hbus : s.bus = ⟨.fail, r⟩ :: ⟨.ok, r'⟩ :: rest) :
    Reaches s ((s.afterFail q r (⟨.ok, r'⟩ :: rest)).released .closed 2 .ok r' rest) := by
  have hseq' : (s.afterFail q r (⟨.ok, r'⟩ :: rest)).seq = .closeSeq := (State.afterFail_seq ..).trans hseq
  have hrun' : Running (s.afterFail q r (⟨.ok, r'⟩ :: rest)) := running_afterFail hrun ..
  have hfail : step s = .next ((s.afterFail q r (⟨.ok, r'⟩ :: rest)).goto .closeSeq 5) := by
    rw [step_writeFailed hrun hreq hop hbus]
    simp only [failed, hseq']
  have hskip : Running ((s.afterFail q r (⟨.ok, r'⟩ :: rest)).goto .closeSeq 5) := ⟨nofun, hrun'.2⟩
  refine .trans (.of_step hfail) (.trans (.of_step (step_issue hskip (by simp) rfl)) ?_)
  exact reaches_released (s := State.request _ _) hskip rfl (by simp) (relAnswered_closeSeq rfl)

/-- What a run to the release after a FAIL leaves behind; of the device registers only the group is touched. -/
theorem exists_released {x : Lifecycle} {op : BitVec 4} {e : ErrKind}
    (hreach : Reaches s ((s.afterFail q r (⟨.ok, r'⟩ :: rest)).released x op e r' rest)) :
    ∃ (t : State) (n : Nat), runSteps n s = .next t ∧
      t.st = x ∧ t.held = false ∧ t.seq = .idle ∧ t.step = 0 ∧ t.lastErr = e ∧ t.req = none ∧
      t.rsp = none ∧ t.bus = rest ∧ t.actual = s.actual ∧ t.addr = s.addr ∧ t.host = s.host ∧
      t.events =
        .rsp (responseWord op e 0) :: .txn ⟨s.addr, .rel⟩ ⟨.ok, r'⟩ :: .txn q ⟨.fail, r⟩ :: s.events ∧
      ∀ k : Nat, k ∉ s.group.map (deviceKey q.addr7) → Memory.read t.dev k = Memory.read s.dev k := by
  obtain ⟨n, hn⟩ := hreach
  refine ⟨_, n, hn, rfl, rfl, rfl, rfl, rfl, rfl, rfl, rfl, State.afterFail_actual ..,
    State.afterFail_addr .., State.afterFail_host .., ?_, fun k hk => State.read_afterFail_other hk⟩
  simp [State.released]

end

theorem group_of_reset {s : State} (hseq : s.seq = .openSeq ∨ s.seq = .closeSeq ∨ s.seq = .resetSeq) :
    s.group = [0x00, 0xFA, 0xFB, 0xFC, 0xFD] := by
  obtain hseq | hseq | hseq := hseq <;> simp only [State.group, hseq] <;> rfl

/-- Settles O14: the FAIL, the answer to REL, and the response handed over. -/
theorem openReleasesOnFailure : Obligations.OpenReleasesOnFailure := by
  intro s q reg val r r' rest hrun hseq _ _ hreq hop hbus
  rw [← group_of_reset (.inl hseq)]
  exact exists_released (reaches_openReleased hrun hseq hreq hop hbus)

/-- Settles O17: the FAIL, the issue and the answer of REL, and the response handed over. -/
theorem closeSwallowsFailure : Obligations.CloseSwallowsFailure := by
  intro s q reg val r r' rest hrun hseq hreq hop hbus
  rw [← group_of_reset (.inr (.inl hseq))]
  exact exists_released (reaches_closeReleased hrun hseq hreq hop hbus)

end Sys2Proof.Safety
end

section
/-! The prescaler quantizer (41_frequency.md section 1): its integer form and the formula in exact arithmetic. -/

namespace Sys2Proof.Machine

theorem clamp_eq_max_min {lo hi : Int} (h : lo ≤ hi) (v : Int) : clamp lo hi v = max lo (min hi v) := by
  unfold clamp
  split
  · omega
  · split <;> omega

/-- A clamped byte loses nothing in its 8 bits. -/
theorem toNat_prescaleByte (hz : Nat) : ((prescaleByte hz).toNat : Int) = clamp 0 255 (prescaleRaw hz) := by
  have hclamp := clamp_eq_max_min (lo := 0) (hi := 255) (by decide) (prescaleRaw hz)
  have hlt : (clamp 0 255 (prescaleRaw hz)).toNat < 2 ^ 8 := by omega
  rw [prescaleByte, BitVec.toNat_ofNat, Nat.mod_eq_of_lt hlt]
  omega

/-- R173 with the oscillator, the tick count and the adjustment written out. -/
theorem roundingArg_eq (hz : ℚ) : roundingArg hz = 25000000 / 4096 / (9 / 10 * hz) - 1 + 1 / 2 := by
  simp [roundingArg]

/-- R173 over one denominator is the fraction whose floor R175 takes. -/
theorem roundingArg_eq_div {hz : Nat} (h : 1 ≤ hz) :
    roundingArg (hz : ℚ) = ((1953125 - 144 * (hz : Int) : Int) : ℚ) / ((288 * hz : Nat) : ℚ) := by
  have hne : (hz : ℚ) ≠ 0 := Nat.cast_ne_zero.mpr (Nat.one_le_iff_ne_zero.mp h)
  rw [roundingArg_eq]
  push_cast
  field_simp
  ring

/-- R175's floor division is the floor R173 takes. -/
theorem floor_roundingArg {hz : Nat} (h : 1 ≤ hz) : ⌊roundingArg (hz : ℚ)⌋ = prescaleRaw hz := by
  rw [roundingArg_eq_div h, Rat.floor_intCast_div_natCast, prescaleRaw, Nat.cast_mul, Nat.cast_ofNat]

/-- The model's rational reading takes Mathlib's floor. -/
theorem prescaleExact_eq (hz : ℚ) : prescaleExact hz = clamp 0 255 ⌊roundingArg hz⌋ := rfl

/-- Settles O41: the floors agree, and each side is the same clamp of them. -/
theorem quantizerMeetsFormula : Obligations.QuantizerMeetsFormula := by
  intro hz h
  constructor
  · rw [toNat_prescaleByte, clamp_eq_max_min (by decide), ← floor_roundingArg h, roundingArg_eq]
  · rw [toNat_prescaleByte, prescaleExact_eq, floor_roundingArg h]

end Sys2Proof.Machine
end

section
/-! SETCH and SETALL (42_dutycycle.md): the encoder's table, the byte split, acceptance in READY, and a FAIL in the
write group. -/

namespace Sys2Proof.Machine

/-! ### The encoder (R202, R203, R209) -/

theorem normDuty_of_neg {d : Int} (h : d < 0) : normDuty d = 0 := if_pos h

theorem normDuty_of_sentinel_lt {d : Int} (h : 4096 < d) : normDuty d = 4095 := by
  rw [normDuty, if_neg (by omega), if_pos h]
  rfl

theorem normDuty_of_le_sentinel {d : Int} (hlo : 0 ≤ d) (hhi : d ≤ 4096) : (normDuty d : Int) = d := by
  rw [normDuty, if_neg (by omega), if_neg (by simpa only [Config.dutySentinel, not_lt] using hhi)]
  exact Int.toNat_of_nonneg hlo

/-- R203's last row, normal polarity. -/
theorem enc_false_of_inner {v : Nat} (hlo : 1 ≤ v) (hhi : v ≤ 4094) : enc false v = (0, v) := by
  rw [enc, if_neg (by omega), if_neg (by omega), if_neg (by omega)]

/-- R203's last row, inverted polarity. -/
theorem enc_true_of_inner {v : Nat} (hlo : 1 ≤ v) (hhi : v ≤ 4094) : enc true v = (0, 4095 - v) := by
  rw [enc, if_neg (by omega), if_neg (by omega), if_neg (by omega)]

/-- R208: on normalized duties both ticks are at most the sentinel. -/
theorem enc_le {v : Nat} (h : v ≤ 4096) (inv : Bool) : (enc inv v).1 ≤ 4096 ∧ (enc inv v).2 ≤ 4096 := by
  cases inv with
  | false =>
    simp only [enc]
    split_ifs <;> exact ⟨by omega, by omega⟩
  | true =>
    simp only [enc]
    split_ifs <;> exact ⟨by omega, by omega⟩

theorem toNat_onTick (inv : Bool) (d : Int) : (onTick inv d).toNat = (enc inv (normDuty d)).1 :=
  Nat.mod_eq_of_lt (Nat.lt_of_le_of_lt (enc_le (normDuty_le d) inv).1 (by decide))

theorem toNat_offTick (inv : Bool) (d : Int) : (offTick inv d).toNat = (enc inv (normDuty d)).2 :=
  Nat.mod_eq_of_lt (Nat.lt_of_le_of_lt (enc_le (normDuty_le d) inv).2 (by decide))

/-- Settles O44: the table's rows, and 13 bits hold every tick the encoder produces. -/
theorem encoderTable : Obligations.EncoderTable :=
  ⟨fun _ => ⟨normDuty_of_neg, normDuty_of_sentinel_lt, normDuty_of_le_sentinel⟩,
    rfl, rfl, rfl, fun _ => enc_false_of_inner, rfl, rfl, rfl, fun _ => enc_true_of_inner,
    fun inv d => ⟨toNat_onTick inv d, toNat_offTick inv d⟩⟩

theorem toNat_lowByte (t : Tick) : (lowByte t).toNat = t.toNat % 256 := by
  simp [lowByte]

theorem toNat_highByte (t : Tick) : (highByte t).toNat = t.toNat / 256 := by
  have ht : t.toNat < 8192 := t.isLt
  simp only [highByte, BitVec.toNat_setWidth, BitVec.extractLsb'_toNat, Nat.shiftRight_eq_div_pow]
  omega

/-- Settles O48; a tick has 13 bits, so its high byte has 5. -/
theorem byteSplit : Obligations.ByteSplit := by
  intro t
  have ht : t.toNat < 8192 := t.isLt
  refine ⟨toNat_lowByte t, toNat_highByte t, ?_⟩
  rw [toNat_highByte]
  omega

/-! ### Acceptance in READY (R210, R211, R213, R214) -/

/-- R248: in READY every command but OPEN passes the lifecycle check. -/
theorem checked_of_ready {s : State} (hst : s.st = .ready) (op : BitVec 4) (accepted : State) :
    checked false op s accepted = .next accepted := by
  simp only [checked, hst]
  rfl

theorem exec_setCh_of_ready {s : State} (hst : s.st = .ready) {ch : Nat} (hch : ch ≤ 15) (inv : Bool) (duty : Int) :
    exec (.setCh ch inv duty) s =
      .next ((s.latchPair (onTick inv duty) (offTick inv duty) (channelBase ch)).goto .chanSeq 0) := by
  rw [exec, execSetCh, checked_of_ready hst, if_pos ((channelValid_iff ch).2 hch)]

/-- R210: the channel check comes first; the duty and the polarity play no part. -/
theorem exec_setCh_outOfRange {s : State} (hst : s.st = .ready) {ch : Nat} (hch : 15 < ch) (inv : Bool)
    (duty : Int) : exec (.setCh ch inv duty) s = .next (s.respond 5 .outOfRange 0) := by
  rw [exec, execSetCh, checked_of_ready hst, if_neg (mt (channelValid_iff ch).1 (Nat.not_le.2 hch))]

theorem exec_setAll_of_ready {s : State} (hst : s.st = .ready) (inv : Bool) (duty : Int) :
    exec (.setAll inv duty) s =
      .next ((s.latchPair (onTick inv duty) (offTick inv duty) Config.regAllLed).goto .allSeq 0) :=
  checked_of_ready hst ..

/-- Settles O11, with the base of R211 as one number. -/
theorem dutyCommandsAccepted : Obligations.DutyCommandsAccepted := by
  intro s inv duty hst
  refine ⟨fun ch hch => ?_, fun ch hch => exec_setCh_outOfRange hst hch inv duty, exec_setAll_of_ready hst inv duty⟩
  rw [exec_setCh_of_ready hst hch, channelBase_eq]
  rfl

/-! ### A FAIL in the write group (R215) -/

section
variable (s : State) (q : BusReq) (r : Byte) (l : List BusRsp)

@[simp] theorem State.afterFail_st : (s.afterFail q r l).st = s.st := State.devForgetAll_st ..
@[simp] theorem State.afterFail_held : (s.afterFail q r l).held = s.held := State.devForgetAll_held ..
@[simp] theorem State.afterFail_on : (s.afterFail q r l).on = s.on := State.devForgetAll_on ..
@[simp] theorem State.afterFail_off : (s.afterFail q r l).off = s.off := State.devForgetAll_off ..
@[simp] theorem State.afterFail_base : (s.afterFail q r l).base = s.base := State.devForgetAll_base ..

end

theorem failed_of_writeGroup {s : State} (hseq : s.seq = .chanSeq ∨ s.seq = .allSeq) :
    failed s = .next (s.respond s.seq.op .ioFailure 0) := by
  obtain hseq | hseq := hseq <;> simp only [failed, hseq]

theorem group_of_writeGroup {s : State} (hseq : s.seq = .chanSeq ∨ s.seq = .allSeq) :
    s.group = [s.base, s.base + 1, s.base + 2, s.base + 3] := by
  obtain hseq | hseq := hseq <;> simp only [State.group, hseq]

end Sys2Proof.Machine

namespace Sys2Proof.Safety

open Sys2Proof.Machine

/-- R215: a FAIL in the write group ends the command in that step. -/
theorem step_writeGroupFailed {s : State} {q : BusReq} {reg val r : Byte} {rest : List BusRsp} (hrun : Running s)
    (hseq : s.seq = .chanSeq ∨ s.seq = .allSeq) (hreq : s.req = some q) (hop : q.op = .wr8 reg val)
    (hbus : s.bus = ⟨.fail, r⟩ :: rest) :
    step s = .next ((s.afterFail q r rest).respond s.seq.op .ioFailure 0) := by
  rw [step_writeFailed hrun hreq hop hbus, failed_of_writeGroup (by rwa [State.afterFail_seq]),
    State.afterFail_seq]

/-- Settles O22: the response of the step that takes the FAIL, and what the FAIL leaves as it was. -/
theorem writeGroupFailure : Obligations.WriteGroupFailure := by
  intro s q reg val r rest hrun hseq hst hreq hop hbus
  rw [← group_of_writeGroup hseq]
  refine ⟨_, step_writeGroupFailed hrun hseq hreq hop hbus, ?_⟩
  exact ⟨(State.afterFail_st ..).trans hst, rfl, rfl, State.afterFail_req .., rfl, rfl, State.afterFail_held ..,
    State.afterFail_actual .., State.afterFail_addr .., State.afterFail_on .., State.afterFail_off ..,
    State.afterFail_base .., State.afterFail_events .., fun _ hk => State.read_afterFail_other hk⟩

end Sys2Proof.Safety
end

section
/-! A word presented while a sequence runs (R241): the sequencer does not look at what the host does, so replacing the
host's list before a step or after it makes no difference. -/

namespace Sys2Proof.Machine

/-- What the host does next is replaced. -/
def State.withHost (s : State) (l : List HostAct) : State := { s with host := l }

/-- The host's list is replaced in the next state, if there is one. -/
def Result.withHost (l : List HostAct) : Result → Result
  | .next t => .next (t.withHost l)
  | .fault f => .fault f
  | .refused r => .refused r

@[simp] theorem Result.withHost_next (l : List HostAct) (t : State) :
    Result.withHost l (.next t) = .next (t.withHost l) := rfl

section
variable (s : State) (l : List HostAct)

@[simp] theorem State.withHost_seq : (s.withHost l).seq = s.seq := rfl
@[simp] theorem State.withHost_step : (s.withHost l).step = s.step := rfl
@[simp] theorem State.withHost_tmr : (s.withHost l).tmr = s.tmr := rfl
@[simp] theorem State.withHost_req : (s.withHost l).req = s.req := rfl
@[simp] theorem State.withHost_host : (s.withHost l).host = l := rfl
@[simp] theorem State.withHost_bus : (s.withHost l).bus = s.bus := rfl
@[simp] theorem State.withHost_clk : (s.withHost l).clk = s.clk := rfl
@[simp] theorem State.withHost_micro : (s.withHost l).micro = s.micro := rfl
@[simp] theorem State.withHost_group : (s.withHost l).group = s.group := rfl

theorem State.devForgetAll_withHost (a : BusAddr) (regs : List Byte) :
    (s.withHost l).devForgetAll a regs = (s.devForgetAll a regs).withHost l := by
  induction regs generalizing s with
  | nil => rfl
  | cons reg regs ih => exact ih (s.devForget a reg)

theorem finish_withHost : finish (s.withHost l) = (finish s).withHost l := by
  simp only [finish, State.withHost_seq]
  cases s.seq <;> rfl

theorem stepDone_withHost : stepDone (s.withHost l) = (stepDone s).withHost l := by
  simp only [stepDone, State.withHost_seq, State.withHost_step, finish_withHost]
  split <;> rfl

theorem failed_withHost : failed (s.withHost l) = (failed s).withHost l := by
  simp only [failed, State.withHost_seq]
  cases s.seq <;> rfl

theorem ioFail_withHost (a : BusAddr) : ioFail a (s.withHost l) = (ioFail a s).withHost l := by
  rw [ioFail, State.withHost_group, State.devForgetAll_withHost, failed_withHost, ioFail]

theorem acqAnswered_withHost (x : BusStatus) : acqAnswered x (s.withHost l) = (acqAnswered x s).withHost l := by
  cases x with
  | ok => exact stepDone_withHost { s with held := true } l
  | fail | notFound | inUse => rfl

theorem relAnswered_withHost : relAnswered (s.withHost l) = (relAnswered s).withHost l := by
  simp only [relAnswered, State.withHost_seq]
  cases s.seq <;> rfl

theorem answerEffect_withHost (q : BusReq) (a : BusRsp) :
    answerEffect q a (s.withHost l) = (answerEffect q a s).withHost l := by
  simp only [answerEffect]
  cases q.op with
  | acq => exact acqAnswered_withHost s l a.status
  | rel => exact relAnswered_withHost s l
  | wr8 reg val =>
    dsimp only
    split
    · exact stepDone_withHost (s.devWrite q.addr7 reg val) l
    · exact ioFail_withHost s l q.addr7
  | rd8 reg =>
    dsimp only
    split
    · exact stepDone_withHost { s with old := a.rdata } l
    · exact ioFail_withHost s l q.addr7

theorem awaitAnswer_withHost (q : BusReq) : awaitAnswer q (s.withHost l) = (awaitAnswer q s).withHost l := by
  simp only [awaitAnswer, State.withHost_bus]
  cases s.bus with
  | nil => rfl
  | cons a rest =>
    dsimp only
    split
    · exact answerEffect_withHost (s.answered q a rest) l q a
    · rfl

theorem countDown_withHost : countDown (s.withHost l) = (countDown s).withHost l := by
  simp only [countDown, State.withHost_clk, State.withHost_tmr]
  cases s.clk with
  | nil => rfl
  | cons c later =>
    by_cases htmr : s.tmr ≤ c
    · simp only [htmr, if_true]
      rfl
    · simp only [htmr, if_false]
      rfl

theorem issue_withHost : issue (s.withHost l) = (issue s).withHost l := by
  simp only [issue, State.withHost_micro]
  match s.micro with
  | none => rfl
  | some (.bus op) => rfl
  | some .delay => exact countDown_withHost s l

theorem sequencerStep_withHost : sequencerStep (s.withHost l) = (sequencerStep s).withHost l := by
  by_cases hseq : s.seq = .idle
  · simp only [sequencerStep, State.withHost_seq, hseq, if_true, Result.withHost_next]
  · simp only [sequencerStep, State.withHost_seq, State.withHost_req, hseq, if_false]
    cases s.req with
    | none => exact issue_withHost s l
    | some q => exact awaitAnswer_withHost s l q

end

end Sys2Proof.Machine

namespace Sys2Proof.Safety

open Sys2Proof.Machine

/-- While a sequence runs, the step is the same for every quiet host: one that does nothing, or one whose word
waits. -/
theorem step_withHost {s : State} {l : List HostAct} (hseq : s.seq ≠ .idle) (hhost : hostQuiet s.host = true)
    (hl : hostQuiet l = true) : step (s.withHost l) = Result.withHost l (step s) := by
  cases hrsp : s.rsp with
  | none =>
    have hrun : Running s := ⟨hseq, hrsp, hhost⟩
    have hrun' : Running (s.withHost l) := ⟨hseq, hrsp, hl⟩
    rw [step_running hrun, step_running hrun', sequencerStep_withHost]
  | some r =>
    rw [step_deliver hhost hrsp, step_deliver (s := s.withHost l) hl hrsp]
    rfl

/-- Settles O6: the step with no word presented is that with the word waiting, and so is the step with the host's list
as it stands, which is therefore kept. -/
theorem commandWaitsWhileBusy : Obligations.CommandWaitsWhileBusy := by
  intro s t w later hseq hhost hstep
  have hquiet : hostQuiet s.host = true := by rw [hhost]; rfl
  have hsame (l : List HostAct) (hl : hostQuiet l = true) : step (s.withHost l) = .next (t.withHost l) := by
    rw [step_withHost hseq hquiet hl, hstep, Result.withHost_next]
  have hkept : t = t.withHost s.host := Host.Outcome.next.inj (hstep.symm.trans (hsame s.host hquiet))
  exact ⟨by rw [hkept, State.withHost_host], hsame [] rfl⟩

end Sys2Proof.Safety
end

section
/-! The lifecycle check (R248, R249): every command is one call of `checked`, and what it does when the check lets it
run is decided by its operand. -/

namespace Sys2Proof.Machine

theorem checked_of_run {isOpen : Bool} {s : State} (h : lifecycleVerdict isOpen s.st = .run) (op : BitVec 4)
    (accepted : State) : checked isOpen op s accepted = .next accepted := by
  simp only [checked, h]

theorem checked_of_reject {isOpen : Bool} {s : State} {e : ErrKind} (h : lifecycleVerdict isOpen s.st = .reject e)
    (op : BitVec 4) (accepted : State) : checked isOpen op s accepted = .next (s.respond op e 0) := by
  simp only [checked, h]

/-! ### R248's table -/

theorem lifecycleVerdict_run {op : BitVec 4} {st : Lifecycle}
    (h : (st = .unopened ∧ op = 1) ∨ (st = .ready ∧ op ≠ 1)) :
    lifecycleVerdict (op == 1) st = .run := by
  obtain ⟨rfl, hop⟩ | ⟨rfl, hop⟩ := h <;> simp only [lifecycleVerdict, beq_iff_eq, hop] <;> rfl

theorem lifecycleVerdict_badState {op : BitVec 4} {st : Lifecycle}
    (h : (st = .unopened ∧ op ≠ 1) ∨ (st = .ready ∧ op = 1)) :
    lifecycleVerdict (op == 1) st = .reject .badState := by
  obtain ⟨rfl, hop⟩ | ⟨rfl, hop⟩ := h <;> simp only [lifecycleVerdict, beq_iff_eq, hop] <;> rfl

end Sys2Proof.Machine

namespace Sys2Proof.Safety

open Sys2Proof.Machine

theorem operandOutOfRange_setFreq (hz : Nat) : operandOutOfRange (.setFreq hz) = !inRange hz := by
  simp only [operandOutOfRange, inRange, Bool.not_and, ← decide_not, Nat.not_le]

theorem operandOutOfRange_setCh (ch : Nat) (inv : Bool) (duty : Int) :
    operandOutOfRange (.setCh ch inv duty) = !channelValid ch := by
  simp only [operandOutOfRange, channelValid, ← decide_not, Nat.not_lt]
  rfl

/-- `a` is what the command `i` makes of `s` once the lifecycle check lets it run: its sequence starts, or, for an
operand out of range, it is answered with OutOfRange. -/
def Runs (i : Instr) (s a : State) : Prop :=
  (operandOutOfRange i = false → a.seq.op = opcodeOf i ∧ a.step = 0 ∧ a.rsp = s.rsp) ∧
    (operandOutOfRange i = true → a = s.respond (opcodeOf i) .outOfRange 0)

/-- R249: the lifecycle check of R248 comes first, for every command. -/
theorem exists_exec_eq_checked (i : Instr) (s : State) :
    ∃ a, exec i s = checked (opcodeOf i == 1) (opcodeOf i) s a ∧ Runs i s a := by
  cases i with
  | openCmd addr7 => exact ⟨_, rfl, fun _ => ⟨rfl, rfl, rfl⟩, nofun⟩
  | closeCmd => exact ⟨_, rfl, fun _ => ⟨rfl, rfl, rfl⟩, nofun⟩
  | resetCmd => exact ⟨_, rfl, fun _ => ⟨rfl, rfl, rfl⟩, nofun⟩
  | setFreq hz =>
    refine ⟨_, rfl, ?_⟩
    rw [Runs, operandOutOfRange_setFreq]
    cases inRange hz
    · exact ⟨nofun, fun _ => rfl⟩
    · exact ⟨fun _ => ⟨rfl, rfl, rfl⟩, nofun⟩
  | setCh ch inv duty =>
    refine ⟨_, rfl, ?_⟩
    rw [Runs, operandOutOfRange_setCh]
    cases channelValid ch
    · exact ⟨nofun, fun _ => rfl⟩
    · exact ⟨fun _ => ⟨rfl, rfl, rfl⟩, nofun⟩
  | setAll inv duty => exact ⟨_, rfl, fun _ => ⟨rfl, rfl, rfl⟩, nofun⟩

/-- Settles O7: R248's verdict on the command, and what `checked` makes of it. -/
theorem lifecycleCheck : Obligations.LifecycleCheck := by
  intro i s hseq hstep
  obtain ⟨a, hexec, hstarts, houtOfRange⟩ := exists_exec_eq_checked i s
  rw [hexec]
  refine ⟨fun hclosed => ?_, fun hbad => ?_, fun hruns => ?_⟩
  · have hverdict : lifecycleVerdict (opcodeOf i == 1) s.st = .reject .closed := by rw [hclosed]; rfl
    rw [checked_of_reject hverdict, State.respond_of_idle hseq hstep]
  · rw [checked_of_reject (lifecycleVerdict_badState hbad), State.respond_of_idle hseq hstep]
  · refine ⟨a, checked_of_run (lifecycleVerdict_run hruns) .., hstarts, fun hout => ?_⟩
    rw [houtOfRange hout, State.respond_of_idle hseq hstep]

end Sys2Proof.Safety
end

section
/-! A hardware reset outside idle (R312): with no response pending, `rst` at the head of the host's list makes the
step `assertReset`, which refuses unless no sequence runs and no handle is held. -/

namespace Sys2Proof.Machine

/-- With no response pending, `rst` is asserted at once. -/
theorem step_rst {s : State} {later : List HostAct} (hrsp : s.rsp = none) (hhost : s.host = .rst :: later) :
    step s = assertReset { s with host := later } := by
  simp only [step, machineStep, hhost, hrsp, hostStep]

/-- The stop of R312; the `next` side is `assertReset_cases`. -/
theorem assertReset_refused {s : State} (h : s.seq ≠ .idle ∨ s.held = true) :
    assertReset s = .refused .resetOutsideIdle := by
  refine if_neg ?_
  rintro ⟨hidle, hfree⟩
  obtain hbusy | hheld := h
  · exact hbusy hidle
  · rw [hfree] at hheld
    contradiction

/-- Settles O40: the step is `assertReset`, whose condition fails; the host's list does not enter it. -/
theorem hardwareResetRefused : Obligations.HardwareResetRefused := by
  intro s later hrsp hbusy hhost
  rw [step_rst hrsp hhost]
  exact assertReset_refused hbusy

end Sys2Proof.Machine
end

section
/-! The encoder and the decoder are inverse (R112, R113): a word is its five fields, and each row of R103 fixes the
fields its format does not use. -/

namespace Sys2Proof

/-! ### Operands in their fields -/

/-- R105: a duty is read back from its 16 bits as it was. -/
theorem sint16_ofInt {d : Int} (hlo : -32768 ≤ d) (hhi : d ≤ 32767) : sint16 (BitVec.ofInt 16 d) = d := by
  have hmod : ((BitVec.ofInt 16 d).toNat : Int) = d % 65536 := by
    rw [BitVec.toNat_ofInt, Int.toNat_of_nonneg (Int.emod_nonneg _ (by decide))]
    rfl
  unfold sint16
  split <;> omega

theorem sint16_eq_toInt (x : BitVec 16) : sint16 x = x.toInt := by
  have hx := x.isLt
  rw [BitVec.toInt_eq_toNat_cond, sint16]
  split <;> split <;> omega

theorem ofInt_sint16 (x : BitVec 16) : BitVec.ofInt 16 (sint16 x) = x := by
  rw [sint16_eq_toInt, BitVec.ofInt_toInt]

/-- The 16 bits hold no duty outside R105's range. -/
theorem dutyFits_sint16 (x : BitVec 16) : dutyFits (sint16 x) = true := by
  have hlo := BitVec.le_toInt x
  have hhi := BitVec.toInt_lt (x := x)
  rw [sint16_eq_toInt, dutyFits, Bool.and_eq_true, decide_eq_true_eq, decide_eq_true_eq]
  omega

theorem ofBool_eq_one (b : Bool) : (BitVec.ofBool b == 1#1) = b := by
  cases b <;> rfl

theorem ofBool_beq_one (x : BitVec 1) : BitVec.ofBool (x == 1) = x := by
  revert x
  decide

/-- The 7 bits of an address are the low bits of `IMM16` (R107). -/
theorem addrBits_eq (w : Word) : w.extractLsb' 0 7 = (immField w).extractLsb' 0 7 := by
  ext i hi
  simp [immField]

/-- A word is put together from its fields when ZERO is 0. -/
theorem packWord_of_fields {w : Word} (hzero : zeroField w = 0) :
    packWord (opField w) (chField w) (invField w == 1) (immField w) = w := by
  conv_rhs => rw [word_fields w]
  rw [packWord, ofBool_beq_one, hzero]

/-! ### The decoder on fields -/

/-- R112: the decoder as conditions on the fields. -/
theorem decode_eq_fields (w : Word) :
    decode w =
      if opField w = 1 ∧ chField w = 0 ∧ zeroField w = 0 ∧ invField w = 0 ∧ immField w &&& 0xFF80 = 0 then
        .ok (.openCmd ((immField w).extractLsb' 0 7).toNat)
      else if opField w = 2 ∧ chField w = 0 ∧ zeroField w = 0 ∧ invField w = 0 ∧ immField w = 0 then
        .ok .closeCmd
      else if opField w = 3 ∧ chField w = 0 ∧ zeroField w = 0 ∧ invField w = 0 ∧ immField w = 0 then
        .ok .resetCmd
      else if opField w = 4 ∧ chField w = 0 ∧ zeroField w = 0 ∧ invField w = 0 then
        .ok (.setFreq (immField w).toNat)
      else if opField w = 5 ∧ zeroField w = 0 then
        .ok (.setCh (chField w).toNat (invField w == 1) (sint16 (immField w)))
      else if opField w = 6 ∧ chField w = 0 ∧ zeroField w = 0 then
        .ok (.setAll (invField w == 1) (sint16 (immField w)))
      else .error (illegalReason w) := by
  simp only [decode, matches_open, matches_close, matches_reset, matches_setFreq, matches_setCh, matches_setAll,
    addrBits_eq]

/-- R102: an address field is its low 7 bits when the others are 0. -/
theorem ofNat_addrBits {x : BitVec 16} (h : x &&& 0xFF80 = 0) : BitVec.ofNat 16 (x.extractLsb' 0 7).toNat = x := by
  have hhigh := congrArg BitVec.toNat ((and_addrMask_eq_zero_iff x).1 h)
  apply BitVec.eq_of_toNat_eq
  have hx := x.isLt
  simp [Nat.shiftRight_eq_div_pow] at hhigh ⊢
  omega

/-- Settles O2: of the rows only the command's own has its opcode, and the fields hold the operands. -/
theorem decodeOfEncode : Obligations.DecodeOfEncode := by
  intro i hwf
  rw [decode_eq_fields]
  cases i with
  | openCmd addr7 =>
    have haddr : addr7 < 128 := of_decide_eq_true hwf
    have hlow : addr7 % 65536 % 128 = addr7 := by omega
    simp [encode, addr_high_zero haddr, hlow]
  | closeCmd => rfl
  | resetCmd => rfl
  | setFreq hz =>
    have hhz : hz < 65536 := of_decide_eq_true hwf
    simp [encode, Nat.mod_eq_of_lt hhz]
  | setCh ch inv duty =>
    simp only [WellFormed, Instr.wellFormed, chFits, dutyFits, Bool.and_eq_true, decide_eq_true_eq] at hwf
    obtain ⟨hch, hlo, hhi⟩ := hwf
    simp [encode, sint16_ofInt hlo hhi, Nat.mod_eq_of_lt hch, ofBool_eq_one]
  | setAll inv duty =>
    simp only [WellFormed, Instr.wellFormed, dutyFits, Bool.and_eq_true, decide_eq_true_eq] at hwf
    obtain ⟨hlo, hhi⟩ := hwf
    simp [encode, sint16_ofInt hlo hhi, ofBool_eq_one]

/-- Settles O3: the row a word matches gives the fields its format does not use, so the word is put together from the
operands decoded. -/
theorem encodeOfDecode : Obligations.EncodeOfDecode := by
  intro w i h
  rw [decode_eq_fields] at h
  split_ifs at h with hopen hclose hreset hfreq hch hall <;> cases h
  · obtain ⟨hop, hch, hzero, hinv, himm⟩ := hopen
    have hword := packWord_of_fields hzero
    rw [hop, hch, hinv] at hword
    refine ⟨decide_eq_true (BitVec.isLt _), ?_⟩
    rw [encode, ofNat_addrBits himm]
    exact hword
  · obtain ⟨hop, hch, hzero, hinv, himm⟩ := hclose
    have hword := packWord_of_fields hzero
    rw [hop, hch, hinv, himm] at hword
    exact ⟨rfl, hword⟩
  · obtain ⟨hop, hch, hzero, hinv, himm⟩ := hreset
    have hword := packWord_of_fields hzero
    rw [hop, hch, hinv, himm] at hword
    exact ⟨rfl, hword⟩
  · obtain ⟨hop, hch, hzero, hinv⟩ := hfreq
    have hword := packWord_of_fields hzero
    rw [hop, hch, hinv] at hword
    refine ⟨decide_eq_true (BitVec.isLt _), ?_⟩
    rw [encode, BitVec.ofNat_toNat, BitVec.setWidth_eq]
    exact hword
  · obtain ⟨hop, hzero⟩ := hch
    refine ⟨Bool.and_eq_true_iff.2 ⟨decide_eq_true (BitVec.isLt _), dutyFits_sint16 _⟩, ?_⟩
    rw [encode, BitVec.ofNat_toNat, BitVec.setWidth_eq, ofInt_sint16, ← hop, packWord_of_fields hzero]
  · obtain ⟨hop, hch, hzero⟩ := hall
    refine ⟨dutyFits_sint16 _, ?_⟩
    rw [encode, ofInt_sint16, ← hop, ← hch, packWord_of_fields hzero]

/-- The decoder keeps the opcode: the response of a command carries its word's OP (R108). -/
theorem opcodeOf_decoded {w : Word} {i : Instr} (h : decode w = .ok i) : opcodeOf i = opField w := by
  rw [decode_eq_fields] at h
  split_ifs at h with hopen hclose hreset hfreq hch hall <;> cases h
  · exact hopen.1.symm
  · exact hclose.1.symm
  · exact hreset.1.symm
  · exact hfreq.1.symm
  · exact hch.1.symm
  · exact hall.1.symm

/-- Settles O1: thirteen runs of the decoder. -/
theorem sampleWordsDecode : Obligations.SampleWordsDecode :=
  ⟨rfl, rfl, rfl, rfl, rfl, rfl, rfl, rfl, rfl, rfl, rfl, rfl, rfl⟩

end Sys2Proof
end

section
/-! The quantizer on whole frequencies (R176, R179), the truncated duty (R201), the polarity law (R204) and the pairs
the encoder produces (R207). -/

namespace Sys2Proof.Machine

/-! ### The quantizer -/

/-- R175's quotient between its bounds, as inequalities without division. -/
theorem le_prescaleRaw_iff {hz : Nat} (h : 1 ≤ hz) (k : Int) :
    k ≤ prescaleRaw hz ↔ k * (288 * (hz : Int)) ≤ 1953125 - 144 * (hz : Int) :=
  Int.le_ediv_iff_mul_le (by omega)

/-- R179: on the accepted frequencies the clamp of R175 has nothing to do. -/
theorem prescaleRaw_bounds {hz : Nat} (hlo : 40 ≤ hz) (hhi : hz ≤ 1000) :
    6 ≤ prescaleRaw hz ∧ prescaleRaw hz ≤ 169 := by
  have hpos : 1 ≤ hz := by omega
  refine ⟨(le_prescaleRaw_iff hpos 6).2 (by omega), Int.lt_add_one_iff.1 (not_le.1 fun hle => ?_)⟩
  have := (le_prescaleRaw_iff hpos 170).1 hle
  omega

theorem prescaleRaw_antitone {hz hz' : Nat} (h : 1 ≤ hz) (hle : hz ≤ hz') (hnonneg : 0 ≤ prescaleRaw hz') :
    prescaleRaw hz' ≤ prescaleRaw hz := by
  rw [le_prescaleRaw_iff h]
  have hle' : (hz : Int) ≤ hz' := Int.ofNat_le.2 hle
  calc prescaleRaw hz' * (288 * (hz : Int))
      ≤ prescaleRaw hz' * (288 * (hz' : Int)) := by gcongr
    _ ≤ 1953125 - 144 * (hz' : Int) := (le_prescaleRaw_iff (h.trans hle) _).1 le_rfl
    _ ≤ 1953125 - 144 * (hz : Int) := by omega

theorem toNat_prescaleByte_of_accepted {hz : Nat} (hlo : 40 ≤ hz) (hhi : hz ≤ 1000) :
    ((prescaleByte hz).toNat : Int) = prescaleRaw hz := by
  have hbounds := prescaleRaw_bounds hlo hhi
  rw [toNat_prescaleByte, clamp_eq_max_min (by decide)]
  omega

/-- Settles O42: the byte is the quotient, whose bounds and order are those of its fraction. -/
theorem quantizerRanges : Obligations.QuantizerRanges := by
  intro hz hlo hhi
  have hbyte := toNat_prescaleByte_of_accepted hlo hhi
  have hbounds := prescaleRaw_bounds hlo hhi
  refine ⟨by omega, by omega, hbyte, by simp only [adj]; omega, by simp only [adj]; omega, ?_⟩
  intro hz' hle hhi'
  have hbyte' := toNat_prescaleByte_of_accepted (hlo.trans hle) hhi'
  have hbounds' := prescaleRaw_bounds (hlo.trans hle) hhi'
  have hanti := prescaleRaw_antitone (by omega) hle (by omega)
  omega

/-- R176: the numerator is odd and the denominator even. -/
theorem roundingArg_ne_intCast {hz : Nat} (h : 1 ≤ hz) (k : Int) : roundingArg (hz : ℚ) ≠ (k : ℚ) := by
  rw [roundingArg_eq_div h]
  have hne : ((288 * hz : Nat) : ℚ) ≠ 0 := Nat.cast_ne_zero.2 (by omega)
  intro heq
  rw [div_eq_iff hne] at heq
  have hint : 1953125 - 144 * (hz : Int) = k * (288 * (hz : Int)) := by exact_mod_cast heq
  have hfactor : k * (288 * (hz : Int)) = 2 * (144 * (k * hz)) := by ring
  omega

/-- Settles O43: the quotient is the floor of R173's value, which is no integer. -/
theorem quantizerHasNoTies : Obligations.QuantizerHasNoTies := by
  intro hz h
  have htie := roundingArg_ne_intCast h
  rw [← floor_roundingArg h]
  exact ⟨htie, lt_of_le_of_ne (Int.floor_le _) (htie _).symm, Int.lt_floor_add_one _⟩

/-! ### The duty -/

theorem truncRat_of_nonneg {r : ℚ} (h : 0 ≤ r) : truncRat r = ⌊r⌋ := if_pos h

/-- Settles O45: below the sentinel the truncated duty passes; from 4097 on it is above the sentinel too. -/
theorem truncatedDutyNormalizes : Obligations.TruncatedDutyNormalizes := by
  intro r hr hgap
  rw [normExact, truncRat_of_nonneg hr]
  by_cases hhi : 4096 < r
  · have hfloor : 4096 < ⌊r⌋ := Int.le_floor.2 (not_lt.1 fun hlt => hgap ⟨hhi, by exact_mod_cast hlt⟩)
    rw [normDuty_of_sentinel_lt hfloor, if_pos hhi, if_pos (by exact_mod_cast hhi)]
    exact ⟨rfl, rfl⟩
  · have hfloor : ⌊r⌋ ≤ 4096 := Int.le_of_lt_add_one (Int.floor_lt.2 (by push_cast; linarith))
    rw [normDuty_of_le_sentinel (Int.floor_nonneg.2 hr) hfloor, if_neg hhi, if_neg (by exact_mod_cast hhi)]
    exact ⟨rfl, rfl⟩

/-- Settles O46: the two ends and the inner duties of R203's table. -/
theorem polarityLaw : Obligations.PolarityLaw := by
  refine ⟨fun v hv => ?_, rfl⟩
  obtain rfl | rfl | ⟨hlo, hhi⟩ : v = 0 ∨ v = 4095 ∨ (1 ≤ v ∧ v ≤ 4094) := by omega
  · rfl
  · rfl
  · rw [enc_true_of_inner hlo hhi, enc_false_of_inner (by omega) (by omega)]

/-- R207's pairs. -/
def IsPair (on off : Nat) : Prop :=
  (on = 0 ∧ 1 ≤ off ∧ off ≤ 4096) ∨ (on = 4095 ∧ off = 0) ∨ (on = 4096 ∧ off = 0)

/-- R203, R207: the table's rows give no other pairs. -/
theorem isPair_enc {v : Nat} (h : v ≤ 4096) (inv : Bool) : IsPair (enc inv v).1 (enc inv v).2 := by
  obtain rfl | rfl | rfl | ⟨hlo, hhi⟩ : v = 0 ∨ v = 4095 ∨ v = 4096 ∨ (1 ≤ v ∧ v ≤ 4094) := by omega
  · cases inv <;> simp [enc, IsPair]
  · cases inv <;> simp [enc, IsPair]
  · cases inv <;> simp [enc, IsPair]
  · cases inv
    · rw [enc_false_of_inner hlo hhi]
      exact .inl ⟨rfl, hlo, by omega⟩
    · rw [enc_true_of_inner hlo hhi]
      exact .inl ⟨rfl, by omega, by omega⟩

/-- A duty up to the sentinel is encoded as it is. -/
theorem enc_normDuty_natCast {v : Nat} (h : v ≤ 4096) (inv : Bool) : enc inv (normDuty (v : Int)) = enc inv v := by
  have := normDuty_of_le_sentinel (d := v) (by omega) (by omega)
  rw [Int.ofNat_inj.1 this]

/-- R207: every one of the pairs is some row of R203's table. -/
theorem exists_enc_of_isPair {on off : Nat} (h : IsPair on off) :
    ∃ (inv : Bool) (d : Int), enc inv (normDuty d) = (on, off) := by
  obtain ⟨rfl, hlo, hhi⟩ | ⟨rfl, rfl⟩ | ⟨rfl, rfl⟩ := h
  · obtain hinner | rfl | rfl : off ≤ 4094 ∨ off = 4095 ∨ off = 4096 := by omega
    · exact ⟨false, off, (enc_normDuty_natCast hhi false).trans (enc_false_of_inner hlo hinner)⟩
    · exact ⟨false, 0, rfl⟩
    · exact ⟨true, 4096, rfl⟩
  · exact ⟨false, 4095, rfl⟩
  · exact ⟨false, 4096, rfl⟩

theorem exists_enc_iff_isPair (on off : Nat) :
    (∃ (inv : Bool) (d : Int), enc inv (normDuty d) = (on, off)) ↔ IsPair on off := by
  refine ⟨fun ⟨inv, d, h⟩ => ?_, exists_enc_of_isPair⟩
  simpa only [h] using isPair_enc (normDuty_le d) inv

/-- R207's pairs as a finite set. -/
def pairs : Finset (Nat × Nat) := {0} ×ˢ Finset.Icc 1 4096 ∪ {4095, 4096} ×ˢ {0}

theorem mem_pairs (p : Nat × Nat) : p ∈ pairs ↔ IsPair p.1 p.2 := by
  simp only [pairs, IsPair, Finset.mem_union, Finset.mem_product, Finset.mem_singleton, Finset.mem_Icc,
    Finset.mem_insert, or_and_right]

theorem card_pairs : pairs.card = 4098 := by
  rw [pairs, Finset.card_union_of_disjoint (Finset.disjoint_product.2 (.inl (by simp)))]
  simp

/-- Settles O47: the rows of R203's table on the normalized duties, counted. -/
theorem producedPairs : Obligations.ProducedPairs := by
  refine ⟨exists_enc_iff_isPair, ?_⟩
  have hset : {p : Nat × Nat | ∃ (inv : Bool) (d : Int), enc inv (normDuty d) = p} = ↑pairs := by
    ext p
    exact (exists_enc_iff_isPair p.1 p.2).trans (mem_pairs p).symm
  rw [hset, Set.ncard_coe_finset, card_pairs]

end Sys2Proof.Machine
end

section
/-! Accepting a command (R242): the decoded command runs (R241, R112), what acceptance leaves unchanged, the `accept:`
lines, and the model's stop in a transient state. -/

namespace Sys2Proof.Machine

theorem acceptWord_legal {w : Word} {i : Instr} (h : decode w = .ok i) (s : State) :
    acceptWord w s = exec i (s.log (.cmd w)) := by
  simp only [acceptWord, h]

theorem tableWord_toNat (w : Word) : tableWord 32 w.toNat = w := by
  rw [tableWord, Nat.mod_eq_of_lt w.isLt, BitVec.ofNat_toNat, BitVec.setWidth_eq]

/-- Settles O5: a ready block accepts the word, and `withFetchWord` makes the block ready. -/
theorem stepRunsDecodedCommand : Obligations.StepRunsDecodedCommand := by
  have hruns {s : State} {w : Word} {later : List HostAct} {i : Instr} (hseq : s.seq = .idle) (hrsp : s.rsp = none)
      (hhost : s.host = .cmd w :: later) (hdec : decode w = .ok i) :
      step s = exec i { s with host := later, events := .cmd w :: s.events } :=
    (step_accepts_word hseq hrsp hhost).trans (acceptWord_legal hdec _)
  refine ⟨fun s w later i => hruns, fun s i hdec => ?_⟩
  have hhost : (s.withFetchWord 32 (encode i).toNat).host = .cmd (encode i) :: s.host := by
    simp only [State.withFetchWord, tableWord_toNat]
  exact hruns rfl rfl hhost hdec

/-! ### What acceptance can do -/

/-- The `accept:` lines: the command's sequence starts (R141, R145, R146, R171, R213, R214). -/
inductive Starts (s : State) : Instr → State → Prop
  | opens (a : Nat) (hst : s.st = .unopened) :
    Starts s (.openCmd a) (({ s with addr := BitVec.ofNat 7 a }.setSt .opening).goto .openSeq 0)
  | closes (hst : s.st = .ready) : Starts s .closeCmd (s.goto .closeSeq 0)
  | resets (hst : s.st = .ready) : Starts s .resetCmd (s.goto .resetSeq 0)
  | tunes (hz : Nat) (hst : s.st = .ready) (hlo : 40 ≤ hz) (hhi : hz ≤ 1000) :
    Starts s (.setFreq hz)
      (((s.latchFreq (BitVec.ofNat 16 hz) (prescaleByte hz)).setSt .reconfiguring).goto .freqSeq 0)
  | setsChannel (ch : Nat) (inv : Bool) (duty : Int) (hst : s.st = .ready) (hch : ch ≤ 15) :
    Starts s (.setCh ch inv duty)
      ((s.latchPair (onTick inv duty) (offTick inv duty) (channelBase ch)).goto .chanSeq 0)
  | setsAll (inv : Bool) (duty : Int) (hst : s.st = .ready) :
    Starts s (.setAll inv duty)
      ((s.latchPair (onTick inv duty) (offTick inv duty) Config.regAllLed).goto .allSeq 0)

/-- A command is started, or answered at once with an error. -/
inductive Accepted (i : Instr) (s : State) : State → Prop
  | starts {t : State} (h : Starts s i t) : Accepted i s t
  | answers (e : ErrKind) : Accepted i s (s.respond (opcodeOf i) e 0)

theorem Rejected.accepted {s t : State} (i : Instr) (h : Rejected (opcodeOf i) s t) : Accepted i s t := by
  obtain ⟨e, -, rfl⟩ := h
  exact .answers e

theorem accepted_of_exec {i : Instr} {s t : State} (h : exec i s = .next t) : Accepted i s t := by
  cases i with
  | openCmd addr7 =>
    obtain ⟨hst, rfl⟩ | hrej := execOpenCmd_cases h
    · exact .starts (.opens addr7 hst)
    · exact Rejected.accepted (.openCmd addr7) hrej
  | closeCmd =>
    obtain ⟨hst, rfl⟩ | hrej := execCloseCmd_cases h
    · exact .starts (.closes hst)
    · exact Rejected.accepted .closeCmd hrej
  | resetCmd =>
    obtain ⟨hst, rfl⟩ | hrej := execResetCmd_cases h
    · exact .starts (.resets hst)
    · exact Rejected.accepted .resetCmd hrej
  | setFreq hz =>
    obtain ⟨hst, hlo, hhi, rfl⟩ | ⟨-, rfl⟩ | hrej := execSetFreq_cases h
    · exact .starts (.tunes hz hst hlo hhi)
    · exact .answers .outOfRange
    · exact Rejected.accepted (.setFreq hz) hrej
  | setCh ch inv duty =>
    obtain ⟨hst, hch, rfl⟩ | ⟨-, rfl⟩ | hrej := execSetCh_cases h
    · exact .starts (.setsChannel ch inv duty hst hch)
    · exact .answers .outOfRange
    · exact Rejected.accepted (.setCh ch inv duty) hrej
  | setAll inv duty =>
    obtain ⟨hst, rfl⟩ | hrej := execSetAll_cases h
    · exact .starts (.setsAll inv duty hst)
    · exact Rejected.accepted (.setAll inv duty) hrej

/-! ### What acceptance leaves unchanged -/

/-- What no command's acceptance writes (R242). -/
structure AcceptKeeps (s t : State) : Prop where
  held : t.held = s.held
  actual : t.actual = s.actual
  old : t.old = s.old
  tmr : t.tmr = s.tmr
  req : t.req = s.req
  bus : t.bus = s.bus
  host : t.host = s.host
  clk : t.clk = s.clk
  events : t.events = s.events
  draws : t.draws = s.draws
  dev : t.dev = s.dev

/-- What each command alone may write. -/
structure AcceptWrites (op : BitVec 4) (s t : State) : Prop where
  addr : op ≠ 1 → t.addr = s.addr
  freq : op ≠ 4 → t.hzl = s.hzl ∧ t.pre = s.pre
  pair : op ≠ 5 → op ≠ 6 → t.on = s.on ∧ t.off = s.off ∧ t.base = s.base
  st : op ≠ 1 → op ≠ 4 → t.st = s.st

theorem Accepted.keeps {i : Instr} {s t : State} (h : Accepted i s t) : AcceptKeeps s t := by
  cases h with
  | starts h => cases h <;> constructor <;> rfl
  | answers e => constructor <;> rfl

theorem Accepted.writes {i : Instr} {s t : State} (h : Accepted i s t) : AcceptWrites (opcodeOf i) s t := by
  cases h with
  | starts h => cases h <;> constructor <;> simp [opcodeOf]
  | answers e => constructor <;> simp

/-- Settles O12, by the commands' `accept:` lines and the response of a rejected one. -/
theorem acceptanceFrame : Obligations.AcceptanceFrame := by
  intro i s t h
  have hkeeps := (accepted_of_exec h).keeps
  have hwrites := (accepted_of_exec h).writes
  exact ⟨hkeeps.held, hkeeps.actual, hkeeps.old, hkeeps.tmr, hkeeps.req, hkeeps.bus, hkeeps.host, hkeeps.clk,
    hkeeps.events, hkeeps.draws, fun k => by rw [hkeeps.dev], hwrites.addr, hwrites.freq, hwrites.pair, hwrites.st⟩

/-! ### The `accept:` lines in READY -/

theorem exec_resetCmd_of_ready {s : State} (hst : s.st = .ready) : exec .resetCmd s = .next (s.goto .resetSeq 0) :=
  checked_of_ready hst ..

theorem exec_closeCmd_of_ready {s : State} (hst : s.st = .ready) : exec .closeCmd s = .next (s.goto .closeSeq 0) :=
  checked_of_ready hst ..

theorem exec_setFreq_of_ready {s : State} (hst : s.st = .ready) {hz : Nat} (hlo : 40 ≤ hz) (hhi : hz ≤ 1000) :
    exec (.setFreq hz) s =
      .next (((s.latchFreq (BitVec.ofNat 16 hz) (prescaleByte hz)).setSt .reconfiguring).goto .freqSeq 0) := by
  rw [exec, execSetFreq, checked_of_ready hst, if_pos ((inRange_iff hz).2 ⟨hlo, hhi⟩)]

theorem exec_setFreq_outOfRange {s : State} (hst : s.st = .ready) {hz : Nat} (hout : hz < 40 ∨ 1000 < hz) :
    exec (.setFreq hz) s = .next (s.respond 4 .outOfRange 0) := by
  rw [exec, execSetFreq, checked_of_ready hst, if_neg (mt (inRange_iff hz).1 (by omega))]

/-- Settles O10, by the two sides of the range check. -/
theorem setFreqAccepted : Obligations.SetFreqAccepted := fun _ _ hst =>
  ⟨fun ⟨hlo, hhi⟩ => exec_setFreq_of_ready hst hlo hhi, fun hout => exec_setFreq_outOfRange hst hout⟩

end Sys2Proof.Machine

namespace Sys2Proof.Safety

open Sys2Proof.Machine

/-- Settles O9: each command passes the lifecycle check in the state named. -/
theorem lifecycleCommandsAccepted : Obligations.LifecycleCommandsAccepted :=
  ⟨fun _ a hst => exec_openCmd_unopened hst a, fun _ hst => exec_resetCmd_of_ready hst,
    fun _ hst => exec_closeCmd_of_ready hst⟩

/-- Settles O8: every command is one call of `checked`, whose verdict in a transient state is that it cannot occur. -/
theorem acceptanceWhileTransientStops : Obligations.AcceptanceWhileTransientStops := by
  intro i s hst
  obtain ⟨a, hexec, -⟩ := exists_exec_eq_checked i s
  have hverdict : lifecycleVerdict (opcodeOf i == 1) s.st = .never := by
    obtain hst | hst := hst <;> rw [hst] <;> rfl
  rw [hexec, checked, hverdict]

end Sys2Proof.Safety
end

section
/-! The ports and the status registers (R32, R108, R110), and hardware reset (R39, R310, R311). -/

namespace Sys2Proof.Machine

/-- Settles O36: the port's signals by the request's kind. -/
theorem channelPortSignals : Obligations.ChannelPortSignals := fun _ _ _ =>
  ⟨⟨rfl, rfl, rfl⟩, ⟨rfl, rfl, rfl⟩, ⟨rfl, rfl, rfl⟩, ⟨rfl, rfl, rfl⟩, rfl, rfl, rfl, rfl⟩

/-! ### Fields of an appended word -/

/-- A field of `x ++ y` that lies in `x`. -/
theorem extractLsb'_append_high {n m k len : Nat} (x : BitVec n) (y : BitVec m) :
    (x ++ y).extractLsb' (m + k) len = x.extractLsb' k len := by
  ext i hi
  simp only [BitVec.getElem_extractLsb', BitVec.getLsbD_append]
  rw [if_neg (by omega)]
  congr 1
  omega

/-- A field of `x ++ y` that lies in `y`. -/
theorem extractLsb'_append_low {n m k len : Nat} (x : BitVec n) (y : BitVec m) (h : k + len ≤ m) :
    (x ++ y).extractLsb' k len = y.extractLsb' k len := by
  ext i hi
  simp only [BitVec.getElem_extractLsb', BitVec.getLsbD_append]
  rw [if_pos (by omega)]

/-! ### The response word (R108) -/

theorem responseWord_err (op : BitVec 4) (e : ErrKind) (r : BitVec 16) :
    (responseWord op e r).extractLsb' 0 4 = e.code := by
  rw [responseWord, extractLsb'_append_low _ _ (by decide), BitVec.extractLsb'_eq_self]

theorem responseWord_op (op : BitVec 4) (e : ErrKind) (r : BitVec 16) :
    (responseWord op e r).extractLsb' 4 4 = op := by
  rw [responseWord, extractLsb'_append_high (k := 0), extractLsb'_append_low _ _ (by decide),
    BitVec.extractLsb'_eq_self]

theorem responseWord_result (op : BitVec 4) (e : ErrKind) (r : BitVec 16) :
    (responseWord op e r).extractLsb' 8 16 = r := by
  rw [responseWord, extractLsb'_append_high (k := 4), extractLsb'_append_high (k := 0),
    extractLsb'_append_low _ _ (by decide), BitVec.extractLsb'_eq_self]

theorem responseWord_high (op : BitVec 4) (e : ErrKind) (r : BitVec 16) :
    (responseWord op e r).extractLsb' 24 8 = 0 := by
  rw [responseWord, extractLsb'_append_high (k := 20), extractLsb'_append_high (k := 16),
    extractLsb'_append_high (k := 0), BitVec.extractLsb'_eq_self]

theorem errKind_code_injective {e e' : ErrKind} (h : e.code = e'.code) : e = e' := by
  revert h
  cases e <;> cases e' <;> decide

/-- Settles O37: the word's fields, and the decoder keeps the opcode. -/
theorem responseWordFields : Obligations.ResponseWordFields := by
  refine ⟨fun op e r => ⟨responseWord_err .., responseWord_op .., responseWord_result .., responseWord_high ..⟩,
    ⟨rfl, rfl, rfl, rfl, rfl, rfl, rfl, rfl⟩, fun op op' e e' r r' h => ?_, fun w i => opcodeOf_decoded⟩
  apply errKind_code_injective
  rw [← responseWord_err op e r, h, responseWord_err]

/-! ### The status registers (R32) -/

/-- A status read goes first, whatever is pending. -/
theorem step_readSR {s : State} {n : BitVec 3} {later : List HostAct} (hhost : s.host = .readSR n :: later) :
    step s = .next { s with host := later, events := .readSR n (s.statusRegister n) :: s.events } := by
  simp only [step, machineStep, hhost]
  rfl

theorem sr0_fields (s : State) :
    s.sr0.extractLsb' 0 3 = s.st.code ∧ s.sr0.extractLsb' 3 1 = BitVec.ofBool s.busy ∧
      s.sr0.extractLsb' 4 1 = BitVec.ofBool s.held ∧ s.sr0.extractLsb' 5 4 = s.lastErr.code ∧
      s.sr0.extractLsb' 9 23 = 0 := by
  refine ⟨?_, ?_, ?_, ?_, ?_⟩
  · rw [State.sr0, extractLsb'_append_low _ _ (by decide), BitVec.extractLsb'_eq_self]
  · rw [State.sr0, extractLsb'_append_high (k := 0), extractLsb'_append_low _ _ (by decide),
      BitVec.extractLsb'_eq_self]
  · rw [State.sr0, extractLsb'_append_high (k := 1), extractLsb'_append_high (k := 0),
      extractLsb'_append_low _ _ (by decide), BitVec.extractLsb'_eq_self]
  · rw [State.sr0, extractLsb'_append_high (k := 2), extractLsb'_append_high (k := 1),
      extractLsb'_append_high (k := 0), extractLsb'_append_low _ _ (by decide), BitVec.extractLsb'_eq_self]
  · rw [State.sr0, extractLsb'_append_high (k := 6), extractLsb'_append_high (k := 5),
      extractLsb'_append_high (k := 4), extractLsb'_append_high (k := 0), BitVec.extractLsb'_eq_self]

theorem actual_fields (a : BitVec 14) :
    (a.setWidth 32).extractLsb' 0 14 = a ∧ (a.setWidth 32).extractLsb' 14 18 = 0 := by
  constructor
  · ext i hi
    simp [hi]
    omega
  · ext i hi
    simp

theorem busy_iff (s : State) : s.busy = true ↔ s.seq ≠ .idle := bne_iff_ne

/-- R100: `sr_sel` 5 to 7. -/
theorem statusRegister_of_le (s : State) {n : BitVec 3} (h : 5 ≤ n.toNat) : s.statusRegister n = 0 := by
  obtain h | h | h : n.toNat = 5 ∨ n.toNat = 6 ∨ n.toNat = 7 := by have := n.isLt; omega
  all_goals simp only [State.statusRegister, h]

/-- Settles O38, register by register. -/
theorem statusRegisters : Obligations.StatusRegisters := by
  intro s
  obtain ⟨hst, hbusy, hheld, hlast, hhigh⟩ := sr0_fields s
  obtain ⟨hactual, hactualHigh⟩ := actual_fields s.actual
  exact ⟨hst, hbusy, busy_iff s, hheld, hlast, hhigh, hactual, hactualHigh, rfl, rfl, rfl,
    ⟨rfl, rfl, rfl, rfl, rfl⟩, fun n => statusRegister_of_le s, fun n later => step_readSR⟩

/-! ### Hardware reset -/

theorem assertReset_of_idle {s : State} (hseq : s.seq = .idle) (hheld : s.held = false) :
    assertReset s = .next s.hardwareReset := if_pos ⟨hseq, hheld⟩

/-- Settles O39: the step is `assertReset`, whose condition holds. -/
theorem hardwareReset : Obligations.HardwareReset := by
  refine ⟨⟨rfl, rfl, rfl, rfl, rfl, rfl, rfl, rfl⟩, fun s later hrsp hseq hheld hhost => ?_⟩
  refine ⟨_, (step_rst hrsp hhost).trans (assertReset_of_idle hseq hheld), ?_⟩
  exact ⟨rfl, rfl, rfl, rfl, rfl, rfl, rfl, rfl, hrsp, rfl, rfl, rfl, rfl⟩

/-- Settles O50: the parts of the invariant evaluated in reset's state. -/
theorem resetMeetsInvariant : Obligations.ResetMeetsInvariant :=
  ⟨rfl, rfl, rfl, rfl, rfl, rfl, rfl, rfl, rfl, rfl⟩

end Sys2Proof.Machine
end

section
/-! Everything a step can do, said once: of the running sequencer (`SeqStep`) and of the machine (`MachineStep`). -/

namespace Sys2Proof.Machine

/-- An OK answers the request `q` and has its effect: the handle (R63), the byte written (R61), the byte read (R62). -/
def State.afterOk (s : State) (q : BusReq) (r : Byte) (rest : List BusRsp) : State :=
  { s with
    held := match q.op with
      | .acq => true
      | _ => s.held
    old := match q.op with
      | .rd8 _ => r
      | _ => s.old
    req := none
    bus := rest
    events := .txn q ⟨.ok, r⟩ :: s.events
    dev := match q.op with
      | .wr8 reg val => Memory.write s.dev (deviceKey q.addr7 reg) val
      | _ => s.dev }

section
variable (s : State) (q : BusReq) (r : Byte) (l : List BusRsp)

@[simp] theorem State.afterFail_step : (s.afterFail q r l).step = s.step := State.devForgetAll_step ..
@[simp] theorem State.afterFail_lastErr : (s.afterFail q r l).lastErr = s.lastErr := State.devForgetAll_lastErr ..
@[simp] theorem State.afterFail_old : (s.afterFail q r l).old = s.old := State.devForgetAll_old ..
@[simp] theorem State.afterFail_pre : (s.afterFail q r l).pre = s.pre := State.devForgetAll_pre ..
@[simp] theorem State.afterFail_hzl : (s.afterFail q r l).hzl = s.hzl := State.devForgetAll_hzl ..
@[simp] theorem State.afterFail_tmr : (s.afterFail q r l).tmr = s.tmr := State.devForgetAll_tmr ..
@[simp] theorem State.afterFail_clk : (s.afterFail q r l).clk = s.clk := State.devForgetAll_clk ..

end

/-! ### The running sequencer -/

/-- How a sequence ends in a step, and the state before the response: `done:` after the last table entry, the release,
a failed ACQ, or a FAIL that aborts. -/
inductive Ends (s : State) : State → ErrKind → BitVec 16 → Prop
  | opened {q : BusReq} {r : Byte} {rest : List BusRsp} (hreq : s.req = some q) (hbus : s.bus = ⟨.ok, r⟩ :: rest)
    (hrel : q.op ≠ .rel) (hlast : s.step.toNat = s.seq.lastStep) (hseq : s.seq = .openSeq) :
    Ends s ((s.afterOk q r rest).setSt .ready) .ok 0
  | tuned {q : BusReq} {r : Byte} {rest : List BusRsp} (hreq : s.req = some q) (hbus : s.bus = ⟨.ok, r⟩ :: rest)
    (hrel : q.op ≠ .rel) (hlast : s.step.toNat = s.seq.lastStep) (hseq : s.seq = .freqSeq) :
    Ends s ({ s.afterOk q r rest with actual := BitVec.ofNat 14 (adj s.hzl.toNat) }.setSt .ready) .ok
      (BitVec.ofNat 16 (adj s.hzl.toNat))
  | done {q : BusReq} {r : Byte} {rest : List BusRsp} (hreq : s.req = some q) (hbus : s.bus = ⟨.ok, r⟩ :: rest)
    (hrel : q.op ≠ .rel) (hlast : s.step.toNat = s.seq.lastStep)
    (hseq : s.seq = .resetSeq ∨ s.seq = .chanSeq ∨ s.seq = .allSeq) :
    Ends s (s.afterOk q r rest) .ok 0
  | notAcquired {q : BusReq} {x : BusStatus} {e : ErrKind} {r : Byte} {rest : List BusRsp} (hreq : s.req = some q)
    (hbus : s.bus = ⟨x, r⟩ :: rest) (hacq : q.op = .acq)
    (hx : (x = .notFound ∧ e = .deviceUnavailable) ∨ (x = .inUse ∧ e = .deviceBusy)) :
    Ends s ((s.answered q ⟨x, r⟩ rest).setSt .unopened) e 0
  | closed {q : BusReq} {r : Byte} {rest : List BusRsp} (hreq : s.req = some q) (hbus : s.bus = ⟨.ok, r⟩ :: rest)
    (hrel : q.op = .rel) (hseq : s.seq = .closeSeq) :
    Ends s ({ s.answered q ⟨.ok, r⟩ rest with held := false }.setSt .closed) .ok 0
  | givenUp {q : BusReq} {r : Byte} {rest : List BusRsp} (hreq : s.req = some q) (hbus : s.bus = ⟨.ok, r⟩ :: rest)
    (hrel : q.op = .rel) (hseq : s.seq = .openSeq) :
    Ends s ({ s.answered q ⟨.ok, r⟩ rest with held := false }.setSt .unopened) .ioFailure 0
  | freqFailed {q : BusReq} {r : Byte} {rest : List BusRsp} (hreq : s.req = some q)
    (hbus : s.bus = ⟨.fail, r⟩ :: rest) (hacq : q.op ≠ .acq) (hrel : q.op ≠ .rel) (hseq : s.seq = .freqSeq) :
    Ends s ((s.afterFail q r rest).setSt .ready) .ioFailure 0
  | failed {q : BusReq} {r : Byte} {rest : List BusRsp} (hreq : s.req = some q)
    (hbus : s.bus = ⟨.fail, r⟩ :: rest) (hacq : q.op ≠ .acq) (hrel : q.op ≠ .rel)
    (hseq : s.seq = .resetSeq ∨ s.seq = .chanSeq ∨ s.seq = .allSeq) :
    Ends s (s.afterFail q r rest) .ioFailure 0

/-- Everything a step of a running sequence can do (R243 to R246). -/
inductive SeqStep (s : State) : State → Prop
  | waits {q : BusReq} (hreq : s.req = some q) (hbus : s.bus = []) : SeqStep s s
  | issues {op : BusOp} (hreq : s.req = none) (hmicro : s.micro = some (.bus op)) : SeqStep s (s.request op)
  | noTime (hreq : s.req = none) (hmicro : s.micro = some .delay) (hclk : s.clk = []) : SeqStep s s
  | counts {c : Nat} {later : List Nat} (hreq : s.req = none) (hmicro : s.micro = some .delay)
    (hclk : s.clk = c :: later) (hc : c < s.tmr) : SeqStep s { s with tmr := s.tmr - c, clk := later }
  | delayEnds {c : Nat} {later : List Nat} (hreq : s.req = none) (hmicro : s.micro = some .delay)
    (hclk : s.clk = c :: later) (hc : s.tmr ≤ c) :
    SeqStep s ({ s with tmr := 0, step := s.step + 1, clk := later }.log .delay)
  | movesOn {q : BusReq} {r : Byte} {rest : List BusRsp} (hreq : s.req = some q)
    (hbus : s.bus = ⟨.ok, r⟩ :: rest) (hrel : q.op ≠ .rel) (hlast : s.step.toNat ≠ s.seq.lastStep) :
    SeqStep s (s.afterOk q r rest).nextStep
  | openFails {q : BusReq} {r : Byte} {rest : List BusRsp} (hreq : s.req = some q)
    (hbus : s.bus = ⟨.fail, r⟩ :: rest) (hacq : q.op ≠ .acq) (hrel : q.op ≠ .rel) (hseq : s.seq = .openSeq) :
    SeqStep s ((s.afterFail q r rest).request .rel)
  | closeFails {q : BusReq} {r : Byte} {rest : List BusRsp} (hreq : s.req = some q)
    (hbus : s.bus = ⟨.fail, r⟩ :: rest) (hacq : q.op ≠ .acq) (hrel : q.op ≠ .rel) (hseq : s.seq = .closeSeq) :
    SeqStep s ((s.afterFail q r rest).goto .closeSeq 5)
  | ends {u : State} {e : ErrKind} {r : BitVec 16} (h : Ends s u e r) : SeqStep s (u.respond s.seq.op e r)

/-- A request answered OK, but for a REL: the effect, then the next step or the `done:` line. -/
theorem answerEffect_ok {q : BusReq} (hrel : q.op ≠ .rel) (s : State) (r : Byte) (rest : List BusRsp) :
    answerEffect q ⟨.ok, r⟩ (s.answered q ⟨.ok, r⟩ rest) = stepDone (s.afterOk q r rest) := by
  obtain ⟨a, op⟩ := q
  cases op with
  | rel => exact absurd rfl hrel
  | acq | wr8 reg val | rd8 reg => rfl

/-- A write or a read answered FAIL. -/
theorem answerEffect_fail {q : BusReq} (hacq : q.op ≠ .acq) (hrel : q.op ≠ .rel) (s : State) (r : Byte)
    (rest : List BusRsp) :
    answerEffect q ⟨.fail, r⟩ (s.answered q ⟨.fail, r⟩ rest) = failed (s.afterFail q r rest) := by
  obtain ⟨a, op⟩ := q
  cases op with
  | acq => exact absurd rfl hacq
  | rel => exact absurd rfl hrel
  | wr8 reg val | rd8 reg => rfl

/-- R110's table as cases: OK, a failed ACQ, or the FAIL of a write or read. -/
theorem statusAllowed_cases {op : BusOp} {x : BusStatus} (h : statusAllowed op x = true) :
    x = .ok ∨ (op = .acq ∧ (x = .notFound ∨ x = .inUse)) ∨ (op ≠ .acq ∧ op ≠ .rel ∧ x = .fail) := by
  cases op <;> cases x <;> simp_all [statusAllowed]

section
variable {s t : State} {q : BusReq} {r : Byte} {rest : List BusRsp}

theorem seqStep_of_stepDone (hreq : s.req = some q) (hbus : s.bus = ⟨.ok, r⟩ :: rest) (hrel : q.op ≠ .rel)
    (h : stepDone (s.afterOk q r rest) = .next t) : SeqStep s t := by
  obtain ⟨hlast, hfin⟩ | ⟨hlast, rfl⟩ := stepDone_cases h
  · obtain ⟨hseq, rfl⟩ | ⟨hseq, rfl⟩ | ⟨hseq, rfl⟩ := finish_cases hfin
    · exact .ends (.opened hreq hbus hrel hlast hseq)
    · exact .ends (.tuned hreq hbus hrel hlast hseq)
    · exact .ends (.done hreq hbus hrel hlast hseq)
  · exact .movesOn hreq hbus hrel hlast

theorem seqStep_of_failed (hreq : s.req = some q) (hbus : s.bus = ⟨.fail, r⟩ :: rest) (hacq : q.op ≠ .acq)
    (hrel : q.op ≠ .rel) (h : failed (s.afterFail q r rest) = .next t) : SeqStep s t := by
  obtain ⟨hseq, rfl⟩ | ⟨hseq, rfl⟩ | ⟨hseq, rfl⟩ | ⟨hseq, rfl⟩ := failed_cases h <;>
    simp only [State.afterFail_seq] at hseq ⊢
  · exact .openFails hreq hbus hacq hrel hseq
  · exact .closeFails hreq hbus hacq hrel hseq
  · exact .ends (.freqFailed hreq hbus hacq hrel hseq)
  · exact .ends (.failed hreq hbus hacq hrel hseq)

theorem seqStep_of_relAnswered (hreq : s.req = some q) (hbus : s.bus = ⟨.ok, r⟩ :: rest) (hrel : q.op = .rel)
    (h : relAnswered (s.answered q ⟨.ok, r⟩ rest) = .next t) : SeqStep s t := by
  obtain ⟨hseq, rfl⟩ | ⟨hseq, rfl⟩ := relAnswered_cases h
  · exact .ends (.closed hreq hbus hrel hseq)
  · exact .ends (.givenUp hreq hbus hrel hseq)

end

theorem seqStep_of_answerEffect {s t : State} {q : BusReq} {a : BusRsp} {rest : List BusRsp} (hreq : s.req = some q)
    (hbus : s.bus = a :: rest) (hallowed : statusAllowed q.op a.status = true)
    (h : answerEffect q a (s.answered q a rest) = .next t) : SeqStep s t := by
  obtain ⟨x, r⟩ := a
  obtain rfl | ⟨hacq, hx⟩ | ⟨hacq, hrel, rfl⟩ := statusAllowed_cases hallowed
  · by_cases hrel : q.op = .rel
    · simp only [answerEffect, hrel] at h
      exact seqStep_of_relAnswered hreq hbus hrel h
    · exact seqStep_of_stepDone hreq hbus hrel ((answerEffect_ok hrel ..).symm.trans h)
  · simp only [answerEffect, hacq] at h
    obtain ⟨rfl, -⟩ | ⟨rfl, rfl⟩ | ⟨rfl, rfl⟩ := acqAnswered_cases h
    · simp at hx
    · exact .ends (.notAcquired hreq hbus hacq (.inl ⟨rfl, rfl⟩))
    · exact .ends (.notAcquired hreq hbus hacq (.inr ⟨rfl, rfl⟩))
  · exact seqStep_of_failed hreq hbus hacq hrel ((answerEffect_fail hacq hrel ..).symm.trans h)

theorem seqStep_of_sequencerStep {s t : State} (hseq : s.seq ≠ .idle) (h : sequencerStep s = .next t) :
    SeqStep s t := by
  obtain ⟨hidle, -⟩ | ⟨-, ⟨q, hreq, hawait⟩ | ⟨hreq, hissue⟩⟩ := sequencerStep_cases h
  · exact absurd hidle hseq
  · obtain ⟨hbus, rfl⟩ | ⟨a, rest, hbus, hallowed, heffect⟩ := awaitAnswer_cases hawait
    · exact .waits hreq hbus
    · exact seqStep_of_answerEffect hreq hbus hallowed heffect
  · obtain ⟨op, hmicro, rfl⟩ | ⟨hmicro, hcount⟩ := issue_cases hissue
    · exact .issues hreq hmicro
    · obtain ⟨hclk, rfl⟩ | ⟨c, later, hclk, ⟨hc, rfl⟩ | ⟨hc, rfl⟩⟩ := countDown_cases hcount
      · exact .noTime hreq hmicro hclk
      · exact .delayEnds hreq hmicro hclk hc
      · exact .counts hreq hmicro hclk hc

/-! ### The machine -/

/-- Everything a step of the machine can do (R100, R241, R310). -/
inductive MachineStep (s : State) : State → Prop
  | reads {n : BitVec 3} {rest : List HostAct} (hhost : s.host = .readSR n :: rest) :
    MachineStep s ({ s with host := rest }.log (.readSR n (s.statusRegister n)))
  | delivers {r : Word} (hrsp : s.rsp = some r) : MachineStep s (s.deliver r)
  | resets {rest : List HostAct} (hrsp : s.rsp = none) (hhost : s.host = .rst :: rest) (hseq : s.seq = .idle)
    (hheld : s.held = false) : MachineStep s { s with host := rest }.hardwareReset
  | rejects {w : Word} {rest : List HostAct} (hrsp : s.rsp = none) (hhost : s.host = .cmd w :: rest)
    (hseq : s.seq = .idle) :
    MachineStep s (({ s with host := rest }.log (.cmd w)).respond (opField w) .illegalCommand 0)
  | accepts {w : Word} {i : Instr} {rest : List HostAct} {t : State} (hrsp : s.rsp = none)
    (hhost : s.host = .cmd w :: rest) (hseq : s.seq = .idle) (hdec : decode w = .ok i)
    (h : Accepted i ({ s with host := rest }.log (.cmd w)) t) : MachineStep s t
  | rests (l : List HostAct) (hrsp : s.rsp = none) (hseq : s.seq = .idle) : MachineStep s { s with host := l }
  | sequences (l : List HostAct) {t : State} (hrsp : s.rsp = none) (hseq : s.seq ≠ .idle)
    (h : SeqStep { s with host := l } t) : MachineStep s t

theorem machineStep_of_step {s t : State} (h : step s = .next t) : MachineStep s t := by
  obtain ⟨n, rest, hhost, rfl⟩ | ⟨r, hrsp, rfl⟩ | ⟨hrsp, rest, hhost, hseq, hheld, rfl⟩ |
    ⟨hrsp, w, rest, hhost, hseq, haccept⟩ | ⟨hrsp, l, -, hstep⟩ := step_cases h
  · exact .reads hhost
  · exact .delivers hrsp
  · exact .resets hrsp hhost hseq hheld
  · obtain ⟨e, -, rfl⟩ | ⟨i, hdec, hexec⟩ := acceptWord_cases haccept
    · exact .rejects hrsp hhost hseq
    · exact .accepts hrsp hhost hseq hdec (accepted_of_exec hexec)
  · by_cases hseq : s.seq = .idle
    · have ht := (sequencerStep_cases hstep).resolve_right fun hbusy => hbusy.1 hseq
      rw [ht.2]
      exact .rests l hrsp hseq
    · exact .sequences l hrsp hseq (seqStep_of_sequencerStep hseq hstep)

end Sys2Proof.Machine

namespace Sys2Proof.Safety

open Sys2Proof.Machine

theorem seqStep_of_step {s t : State} (hrun : Running s) (h : step s = .next t) : SeqStep s t :=
  seqStep_of_sequencerStep hrun.1 ((step_running hrun).symm.trans h)

end Sys2Proof.Safety
end

section
/-! What a step does to the device registers (R61, R65), and that their list stays canonical. -/

namespace Sys2Proof.Machine

/-- The three things a step of the sequencer can do to the device registers. -/
inductive DevStep (s t : State) : Prop
  | keeps (h : t.dev = s.dev)
  | stores {q : BusReq} {r : Byte} {rest : List BusRsp} (hreq : s.req = some q) (hbus : s.bus = ⟨.ok, r⟩ :: rest)
    (h : t.dev = (s.afterOk q r rest).dev)
  | forgets {q : BusReq} {r : Byte} {rest : List BusRsp} (hreq : s.req = some q)
    (hbus : s.bus = ⟨.fail, r⟩ :: rest) (hacq : q.op ≠ .acq) (hrel : q.op ≠ .rel)
    (h : t.dev = (s.afterFail q r rest).dev)

theorem Ends.devStep {s u : State} {e : ErrKind} {r : BitVec 16} (h : Ends s u e r) : DevStep s u := by
  cases h with
  | opened hreq hbus _ _ _ => exact .stores hreq hbus rfl
  | tuned hreq hbus _ _ _ => exact .stores hreq hbus rfl
  | done hreq hbus _ _ _ => exact .stores hreq hbus rfl
  | notAcquired _ _ _ _ => exact .keeps rfl
  | closed _ _ _ _ => exact .keeps rfl
  | givenUp _ _ _ _ => exact .keeps rfl
  | freqFailed hreq hbus hacq hrel _ => exact .forgets hreq hbus hacq hrel rfl
  | failed hreq hbus hacq hrel _ => exact .forgets hreq hbus hacq hrel rfl

theorem SeqStep.devStep {s t : State} (h : SeqStep s t) : DevStep s t := by
  cases h with
  | waits _ _ => exact .keeps rfl
  | issues _ _ => exact .keeps rfl
  | noTime _ _ _ => exact .keeps rfl
  | counts _ _ _ _ => exact .keeps rfl
  | delayEnds _ _ _ _ => exact .keeps rfl
  | movesOn hreq hbus _ _ => exact .stores hreq hbus rfl
  | openFails hreq hbus hacq hrel _ => exact .forgets hreq hbus hacq hrel rfl
  | closeFails hreq hbus hacq hrel _ => exact .forgets hreq hbus hacq hrel rfl
  | ends h =>
    cases h.devStep with
    | keeps h => exact .keeps h
    | stores hreq hbus h => exact .stores hreq hbus h
    | forgets hreq hbus hacq hrel h => exact .forgets hreq hbus hacq hrel h

/-- What the host does plays no part in a FAIL. -/
theorem afterFail_host_dev (s : State) (l : List HostAct) (q : BusReq) (r : Byte) (rest : List BusRsp) :
    (({ s with host := l } : State).afterFail q r rest).dev = (s.afterFail q r rest).dev := by
  have h := congrArg State.dev (State.devForgetAll_withHost (s.answered q ⟨.fail, r⟩ rest) l q.addr7 s.group)
  exact h

theorem MachineStep.devStep {s t : State} (h : MachineStep s t) : DevStep s t := by
  cases h with
  | reads _ => exact .keeps rfl
  | delivers _ => exact .keeps rfl
  | resets _ _ _ _ => exact .keeps rfl
  | rejects _ _ _ => exact .keeps rfl
  | accepts _ _ _ _ h => exact .keeps h.keeps.dev
  | rests _ _ _ => exact .keeps rfl
  | sequences l _ _ h =>
    cases h.devStep with
    | keeps h => exact .keeps h
    | stores hreq hbus h => exact .stores hreq hbus h
    | forgets hreq hbus hacq hrel h => exact .forgets hreq hbus hacq hrel (h.trans (afterFail_host_dev ..))

section
variable {s : State} {q : BusReq} {r : Byte} {rest : List BusRsp}

theorem wf_afterOk (h : Memory.wf s.dev = true) : Memory.wf (s.afterOk q r rest).dev = true := by
  obtain ⟨a, op⟩ := q
  cases op with
  | wr8 reg val => exact Memory.wf_write _ _ h
  | acq | rel | rd8 reg => exact h

theorem wf_afterFail (h : Memory.wf s.dev = true) : Memory.wf (s.afterFail q r rest).dev = true :=
  State.devForgetAll_wf (s := s.answered q ⟨.fail, r⟩ rest) _ _ h

end

/-- Settles O52: a write keeps the order, and so does forgetting a group. -/
theorem stepKeepsDeviceListCanonical : Obligations.StepKeepsDeviceListCanonical := by
  intro s t hwf hstep
  cases (machineStep_of_step hstep).devStep with
  | keeps h => rwa [h]
  | stores _ _ h => rw [h]; exact wf_afterOk hwf
  | forgets _ _ _ _ h => rw [h]; exact wf_afterFail hwf

end Sys2Proof.Machine

namespace Sys2Proof.Safety

open Sys2Proof.Machine

section
variable {s : State} {q : BusReq} {r : Byte} {rest : List BusRsp} {k : Nat}

/-- An OK stores to the register of a write and to no other. -/
theorem read_afterOk_other (hreq : s.req = some q) (hbus : s.bus = ⟨.ok, r⟩ :: rest) (hk : k ∉ storedKeys s) :
    Memory.read (s.afterOk q r rest).dev k = Memory.read s.dev k := by
  obtain ⟨a, op⟩ := q
  cases op with
  | wr8 reg val =>
    simp only [storedKeys, hreq, hbus, if_true, List.mem_singleton] at hk
    exact Memory.read_write_other _ _ hk
  | acq | rel | rd8 reg => rfl

/-- A FAIL stores to the command's group. -/
theorem storedKeys_of_fail (hreq : s.req = some q) (hbus : s.bus = ⟨.fail, r⟩ :: rest) (hacq : q.op ≠ .acq)
    (hrel : q.op ≠ .rel) : storedKeys s = s.group.map (deviceKey q.addr7) := by
  obtain ⟨a, op⟩ := q
  cases op with
  | acq => exact absurd rfl hacq
  | rel => exact absurd rfl hrel
  | wr8 reg val => simp [storedKeys, hreq, hbus]
  | rd8 reg => simp [storedKeys, hreq, hbus]

end

/-- Settles O28, by what a step can do to the device registers. -/
theorem deviceFrame : Obligations.DeviceFrame := by
  intro s t k hstep hk
  cases (machineStep_of_step hstep).devStep with
  | keeps h => rw [h]
  | stores hreq hbus h => rw [h, read_afterOk_other hreq hbus hk]
  | forgets hreq hbus hacq hrel h =>
    rw [storedKeys_of_fail hreq hbus hacq hrel] at hk
    rw [h, State.read_afterFail_other hk]

end Sys2Proof.Safety
end

section
/-! What a step leaves unchanged: the latches and the ports while a sequence runs (R25, R26, R31), ACTUAL (R33), and
when a word is accepted (R100). -/

namespace Sys2Proof.Machine

/-! ### The latches -/

/-- What a step of the running sequencer leaves as it was, beside the ports (R20). -/
structure SeqKeeps (s t : State) : Prop where
  addr : t.addr = s.addr
  hzl : t.hzl = s.hzl
  pre : t.pre = s.pre
  on : t.on = s.on
  off : t.off = s.off
  base : t.base = s.base
  host : t.host = s.host
  old : (∀ q, s.req = some q → ∀ reg, q.op ≠ .rd8 reg) → t.old = s.old
  held : (∀ q, s.req = some q → q.op ≠ .acq ∧ q.op ≠ .rel) → t.held = s.held
  tmr : s.seq ≠ .freqSeq → t.tmr = s.tmr
  clk : ¬(s.seq = .freqSeq ∧ s.step = 4 ∧ s.req = none) → t.clk = s.clk
  actual : ¬(s.seq = .freqSeq ∧ s.step = 5) → t.actual = s.actual

theorem SeqKeeps.refl (s : State) : SeqKeeps s s := by
  constructor <;> intros <;> rfl

section
variable {s : State} {q : BusReq} {r : Byte} {rest : List BusRsp}

theorem afterOk_old (h : ∀ reg, q.op ≠ .rd8 reg) : (s.afterOk q r rest).old = s.old := by
  obtain ⟨a, op⟩ := q
  cases op with
  | rd8 reg => exact absurd rfl (h reg)
  | acq | rel | wr8 reg val => rfl

theorem afterOk_held (h : q.op ≠ .acq) : (s.afterOk q r rest).held = s.held := by
  obtain ⟨a, op⟩ := q
  cases op with
  | acq => exact absurd rfl h
  | rel | wr8 reg val | rd8 reg => rfl

theorem seqKeeps_afterOk (hreq : s.req = some q) : SeqKeeps s (s.afterOk q r rest) where
  addr := rfl
  hzl := rfl
  pre := rfl
  on := rfl
  off := rfl
  base := rfl
  host := rfl
  old h := afterOk_old (h q hreq)
  held h := afterOk_held (h q hreq).1
  tmr _ := rfl
  clk _ := rfl
  actual _ := rfl

theorem seqKeeps_afterFail : SeqKeeps s (s.afterFail q r rest) := by
  constructor <;> intros <;> simp

end

section
variable {s u : State} (h : SeqKeeps s u)
include h

theorem SeqKeeps.setSt (x : Lifecycle) : SeqKeeps s (u.setSt x) := { h with }
theorem SeqKeeps.request (op : BusOp) : SeqKeeps s (u.request op) := { h with }
theorem SeqKeeps.goto (q : SeqId) (k : BitVec 3) : SeqKeeps s (u.goto q k) := { h with }
theorem SeqKeeps.respond (op : BitVec 4) (e : ErrKind) (r : BitVec 16) : SeqKeeps s (u.respond op e r) := { h with }

theorem SeqKeeps.nextStep (hseq : u.seq = s.seq) : SeqKeeps s u.nextStep :=
  { h with
    tmr := fun hfreq => by rw [State.nextStep, if_neg fun hload => hfreq (hseq.symm.trans hload.1), h.tmr hfreq] }

theorem SeqKeeps.setActual (a : BitVec 14) (hseq : s.seq = .freqSeq) (hstep : s.step = 5) :
    SeqKeeps s { u with actual := a } :=
  { h with actual := fun hother => absurd ⟨hseq, hstep⟩ hother }

theorem SeqKeeps.setTime (n : Nat) (l : List Nat) (hreq : s.req = none) (hmicro : s.micro = some .delay) :
    SeqKeeps s { u with tmr := n, clk := l } :=
  have ⟨hseq, hstep⟩ := micro_delay hmicro
  { h with
    tmr := fun hother => absurd hseq hother
    clk := fun hother => absurd ⟨hseq, hstep, hreq⟩ hother }

end

/-- A release clears HELD; only the answer to REL does so. -/
theorem seqKeeps_released {s : State} {q : BusReq} {a : BusRsp} {rest : List BusRsp} (hreq : s.req = some q)
    (hrel : q.op = .rel) : SeqKeeps s { s.answered q a rest with held := false } :=
  { SeqKeeps.refl s with held := fun h => absurd hrel (h q hreq).2 }

theorem Ends.keeps {s u : State} {e : ErrKind} {r : BitVec 16} (h : Ends s u e r) : SeqKeeps s u := by
  cases h with
  | opened hreq _ _ _ _ => exact (seqKeeps_afterOk hreq).setSt _
  | tuned hreq _ _ hlast hseq =>
    have hfive : s.step = 5 := BitVec.eq_of_toNat_eq (by rw [hlast, hseq]; rfl)
    exact ((seqKeeps_afterOk hreq).setActual _ hseq hfive).setSt _
  | done hreq _ _ _ _ => exact seqKeeps_afterOk hreq
  | notAcquired _ _ _ _ => exact { SeqKeeps.refl s with }
  | closed hreq _ hrel _ => exact (seqKeeps_released hreq hrel).setSt _
  | givenUp hreq _ hrel _ => exact (seqKeeps_released hreq hrel).setSt _
  | freqFailed _ _ _ _ _ => exact seqKeeps_afterFail.setSt _
  | failed _ _ _ _ _ => exact seqKeeps_afterFail

theorem SeqStep.keeps {s t : State} (h : SeqStep s t) : SeqKeeps s t := by
  cases h with
  | waits _ _ => exact .refl s
  | issues _ _ => exact (SeqKeeps.refl s).request _
  | noTime _ _ _ => exact .refl s
  | counts hreq hmicro _ _ => exact (SeqKeeps.refl s).setTime _ _ hreq hmicro
  | delayEnds hreq hmicro _ _ => exact { (SeqKeeps.refl s).setTime _ _ hreq hmicro with }
  | movesOn hreq _ _ _ => exact (seqKeeps_afterOk hreq).nextStep rfl
  | openFails _ _ _ _ _ => exact seqKeeps_afterFail.request _
  | closeFails _ _ _ _ _ => exact seqKeeps_afterFail.goto _ _
  | ends h => exact h.keeps.respond _ _ _

/-! ### The response port and LASTERR -/

/-- R31, R108: a step either leaves the response port and LASTERR alone, or ends the command with both. -/
theorem SeqStep.port {s t : State} (h : SeqStep s t) :
    (t.seq = s.seq ∧ t.lastErr = s.lastErr ∧ t.rsp = s.rsp) ∨
      (t.seq = .idle ∧ ∃ r, t.rsp = some (responseWord s.seq.op t.lastErr r)) := by
  cases h with
  | waits _ _ => exact .inl ⟨rfl, rfl, rfl⟩
  | issues _ _ => exact .inl ⟨rfl, rfl, rfl⟩
  | noTime _ _ _ => exact .inl ⟨rfl, rfl, rfl⟩
  | counts _ _ _ _ => exact .inl ⟨rfl, rfl, rfl⟩
  | delayEnds _ _ _ _ => exact .inl ⟨rfl, rfl, rfl⟩
  | movesOn _ _ _ _ => exact .inl ⟨rfl, rfl, rfl⟩
  | openFails _ _ _ _ _ => exact .inl (by simp)
  | closeFails _ _ _ _ hseq => exact .inl (by simp [hseq])
  | ends _ => exact .inr ⟨rfl, _, rfl⟩

end Sys2Proof.Machine

namespace Sys2Proof.Safety

open Sys2Proof.Machine

/-- Settles O29: what the step keeps, and its two ways with the response port. -/
theorem sequencerFrame : Obligations.SequencerFrame := by
  intro s t hrun hstep
  have hseqStep := seqStep_of_step hrun hstep
  have hkeeps := hseqStep.keeps
  refine ⟨hkeeps.addr, hkeeps.hzl, hkeeps.pre, hkeeps.on, hkeeps.off, hkeeps.base, hkeeps.host, hkeeps.old,
    hkeeps.held, hkeeps.tmr, hkeeps.clk, hkeeps.actual, ?_⟩
  obtain ⟨hseq, hlast, hport⟩ | ⟨hidle, hresp⟩ := hseqStep.port
  · exact ⟨fun _ => ⟨hlast, hport.trans hrun.2.1⟩, fun hidle => absurd (hseq.symm.trans hidle) hrun.1⟩
  · exact ⟨fun hbusy => absurd hidle hbusy, fun _ => hresp⟩

end Sys2Proof.Safety

namespace Sys2Proof.Machine

/-! ### ACTUAL -/

/-- R33: only SETFREQ's `done:` writes ACTUAL. -/
theorem SeqStep.actual_cases {s t : State} (h : SeqStep s t) :
    t.actual = s.actual ∨
      (s.seq = .freqSeq ∧ s.step = 5 ∧ t.actual = BitVec.ofNat 14 (9 * s.hzl.toNat) ∧ t.lastErr = .ok ∧
        ∃ q a rest, s.req = some q ∧ s.bus = a :: rest ∧ a.status = .ok) := by
  by_cases hlast : s.seq = .freqSeq ∧ s.step = 5
  · cases h with
    | ends h =>
      cases h with
      | tuned hreq hbus _ _ _ => exact .inr ⟨hlast.1, hlast.2, rfl, rfl, _, _, _, hreq, hbus, rfl⟩
      | freqFailed _ _ _ _ _ => exact .inl (by simp)
      | failed _ _ _ _ _ => exact .inl (by simp)
      | opened _ _ _ _ _ | done _ _ _ _ _ | notAcquired _ _ _ _ | closed _ _ _ _ | givenUp _ _ _ _ => exact .inl rfl
    | openFails _ _ _ _ _ => exact .inl (by simp)
    | closeFails _ _ _ _ _ => exact .inl (by simp)
    | waits _ _ | issues _ _ | noTime _ _ _ | counts _ _ _ _ | delayEnds _ _ _ _ | movesOn _ _ _ _ => exact .inl rfl
  · exact .inl (h.keeps.actual hlast)

/-- Settles O30, by what a step can do to ACTUAL. -/
theorem actualWrittenOnlyOnSuccess : Obligations.ActualWrittenOnlyOnSuccess := by
  intro s t hstep
  cases machineStep_of_step hstep with
  | reads _ => exact .inl rfl
  | delivers _ => exact .inl rfl
  | resets _ hhost _ _ => exact .inr (.inl ⟨rfl, _, hhost⟩)
  | rejects _ _ _ => exact .inl rfl
  | accepts _ _ _ _ h => exact .inl h.keeps.actual
  | rests _ _ _ => exact .inl rfl
  | sequences l _ _ h => exact h.actual_cases.imp_right .inr

/-! ### Accepting a word -/

/-- No step of the sequencer records an accepted word. -/
theorem SeqStep.events_ne_cmd {s t : State} (h : SeqStep s t) (w : Word) : t.events ≠ .cmd w :: s.events := by
  have hself : s.events ≠ .cmd w :: s.events := (List.cons_ne_self _ _).symm
  have htxn (q : BusReq) (a : BusRsp) : Event.txn q a :: s.events ≠ .cmd w :: s.events := by simp
  cases h with
  | waits _ _ | issues _ _ | noTime _ _ _ | counts _ _ _ _ => exact hself
  | delayEnds _ _ _ _ => simp
  | movesOn _ _ _ _ => exact htxn _ _
  | openFails _ _ _ _ _ => simp
  | closeFails _ _ _ _ _ => simp
  | ends h =>
    cases h with
    | opened _ _ _ _ _ | tuned _ _ _ _ _ | done _ _ _ _ _ | notAcquired _ _ _ _ | closed _ _ _ _ | givenUp _ _ _ _ =>
      exact htxn _ _
    | freqFailed _ _ _ _ _ => simp
    | failed _ _ _ _ _ => simp

theorem cmdReady_iff (s : State) : s.cmdReady = true ↔ s.seq = .idle ∧ s.rsp = none := by
  simp [State.cmdReady]

/-- A pending response goes before everything of the host's but a status read. -/
theorem step_pending {s : State} {r : Word} (hrsp : s.rsp = some r)
    (hhost : ∀ n later, s.host ≠ .readSR n :: later) : step s = .next (s.deliver r) := by
  simp only [step, machineStep]
  split
  · simp only [hrsp]
  · rename_i n later hread
    exact absurd hread (hhost n later)
  · simp only [hrsp]

/-- Settles O34: the accepted word is recorded by the step that accepts it and by no other. -/
theorem responsePort : Obligations.ResponsePort := by
  refine ⟨cmdReady_iff, fun s r => step_pending, fun s r n later _ => step_readSR, ?_⟩
  intro s t w hstep hevent
  have haccepted {w' : Word} {rest : List HostAct} (hhost : s.host = .cmd w' :: rest)
      (hw : Event.cmd w' :: s.events = .cmd w :: s.events) : ∃ later, s.host = .cmd w :: later := by
    cases hw
    exact ⟨rest, hhost⟩
  cases machineStep_of_step hstep with
  | reads _ => simp at hevent
  | delivers _ => simp at hevent
  | resets _ _ _ _ => simp at hevent
  | rejects hrsp hhost hseq => exact ⟨(cmdReady_iff s).2 ⟨hseq, hrsp⟩, haccepted hhost hevent⟩
  | accepts hrsp hhost hseq _ h =>
    exact ⟨(cmdReady_iff s).2 ⟨hseq, hrsp⟩, haccepted hhost (h.keeps.events.symm.trans hevent)⟩
  | rests _ _ _ => exact absurd hevent (List.cons_ne_self _ _).symm
  | sequences l _ _ h => exact absurd hevent (h.events_ne_cmd w)

end Sys2Proof.Machine
end

section
/-! The sequencer's parts: the tables (R244), the provider's answers (R60 to R62, R110), and the settle delay (R290,
R291). -/

namespace Sys2Proof.Safety

open Sys2Proof.Machine

/-! ### The tables -/

/-- A list of steps with their requests, each the entry of the table `f`. -/
theorem entry_of_mem {f : Nat → Option Micro} {l : List (Nat × BusOp)} (hall : ∀ e ∈ l, f e.1 = some (.bus e.2))
    {k : Nat} {op : BusOp} (h : (k, op) ∈ l) : f k = some (.bus op) := hall _ h

theorem micro_openSeq {s : State} (hseq : s.seq = .openSeq) : s.micro = openStep s.step.toNat := by
  simp only [State.micro, hseq]

theorem micro_closeSeq {s : State} (hseq : s.seq = .closeSeq) : s.micro = closeStep s.step.toNat := by
  simp only [State.micro, hseq]

theorem micro_resetSeq {s : State} (hseq : s.seq = .resetSeq) : s.micro = resetWrite s.step.toNat := by
  simp only [State.micro, hseq]

theorem micro_freqSeq {s : State} (hseq : s.seq = .freqSeq) : s.micro = freqStep s.old s.pre s.step.toNat := by
  simp only [State.micro, hseq]

theorem micro_writeGroup {s : State} (hseq : s.seq = .chanSeq ∨ s.seq = .allSeq) :
    s.micro = groupStep s.on s.off s.base s.step.toNat := by
  obtain hseq | hseq := hseq <;> simp only [State.micro, hseq]

/-! ### The settle delay -/

/-- SETFREQ's step 4, with nothing outstanding. -/
structure Settling (s : State) : Prop where
  running : Running s
  seq : s.seq = .freqSeq
  step : s.step = 4
  req : s.req = none

theorem step_settling {s : State} (h : Settling s) : step s = countDown s := by
  have hmicro : s.micro = some .delay := by simp only [State.micro, h.seq, h.step]; rfl
  rw [step_running h.running]
  simp only [sequencerStep, if_neg h.running.1, h.req, issue, hmicro]

theorem step_noTime {s : State} (h : Settling s) (hclk : s.clk = []) : step s = .next s := by
  rw [step_settling h, countDown, hclk]

theorem step_counts {s : State} (h : Settling s) {c : Nat} {later : List Nat} (hclk : s.clk = c :: later)
    (hc : c < s.tmr) : step s = .next { s with tmr := s.tmr - c, clk := later } := by
  simp only [step_settling h, countDown, hclk, if_neg (Nat.not_le.2 hc)]

theorem step_delayEnds {s : State} (h : Settling s) {c : Nat} {later : List Nat} (hclk : s.clk = c :: later)
    (hc : s.tmr ≤ c) :
    step s = .next { s with tmr := 0, clk := later, step := 5, events := .delay :: s.events } := by
  have hfive : s.step + 1 = 5 := by rw [h.step]; rfl
  simp only [step_settling h, countDown, hclk, if_pos hc, hfive]
  rfl

/-- Settles O23: the entry of the table goes out; the delay touches neither port nor device. -/
theorem microSequenceTables : Obligations.MicroSequenceTables := by
  refine ⟨fun s k op hrun hreq hk hentry => step_issue hrun hreq ?_, fun s hrun hreq hseq hstep => ?_⟩
  · subst hk
    obtain ⟨hseq, hmem⟩ | ⟨hseq, hmem⟩ | ⟨hseq, hmem⟩ | ⟨hseq, hmem⟩ | ⟨hseq, hmem⟩ := hentry
    · exact (micro_openSeq hseq).trans (entry_of_mem (by decide) hmem)
    · exact (micro_closeSeq hseq).trans (entry_of_mem (by decide) hmem)
    · exact (micro_resetSeq hseq).trans (entry_of_mem (by decide) hmem)
    · refine (micro_freqSeq hseq).trans (entry_of_mem ?_ hmem)
      simp only [List.forall_mem_cons]
      exact ⟨rfl, rfl, rfl, rfl, rfl, nofun⟩
    · refine (micro_writeGroup hseq).trans (entry_of_mem ?_ hmem)
      simp only [List.forall_mem_cons]
      exact ⟨rfl, rfl, rfl, rfl, nofun⟩
  · have h : Settling s := ⟨hrun, hseq, hstep, hreq⟩
    cases hclk : s.clk with
    | nil => exact ⟨_, step_noTime h hclk, hreq, rfl⟩
    | cons c later =>
      by_cases hc : s.tmr ≤ c
      · exact ⟨_, step_delayEnds h hclk hc, hreq, rfl⟩
      · exact ⟨_, step_counts h hclk (Nat.not_le.1 hc), hreq, rfl⟩

theorem cmdReady_of_busy {s : State} (hseq : s.seq ≠ .idle) : s.cmdReady = false := by
  simp [State.cmdReady, hseq]

/-- U11: if the clocks to come do not reach TMR the delay goes on, however many steps are taken. -/
theorem runSteps_settling {s : State} (h : Settling s) (hclk : s.clk.sum < s.tmr ∨ s.clk = []) (n : Nat) :
    ∃ t, runSteps n s = .next t ∧ Settling t ∧ t.events = s.events := by
  induction n generalizing s with
  | zero => exact ⟨s, rfl, h, rfl⟩
  | succ n ih =>
    cases hl : s.clk with
    | nil =>
      obtain ⟨t, hrun, ht, hevents⟩ := ih h hclk
      exact ⟨t, (run_succ (step_noTime h hl)).trans hrun, ht, hevents⟩
    | cons c later =>
      have hsum : c + later.sum < s.tmr := by
        simpa [hl] using hclk
      obtain ⟨t, hrun, ht, hevents⟩ :=
        ih (s := { s with tmr := s.tmr - c, clk := later }) ⟨h.running, h.seq, h.step, h.req⟩
          (.inl (by simp only; omega))
      exact ⟨t, (run_succ (step_counts h hl (by omega))).trans hrun, ht, hevents⟩

/-- Settles O25, by induction on the steps taken. -/
theorem delayMayNeverEnd : Obligations.DelayMayNeverEnd := by
  intro s hrun hseq hstep hreq hclk n
  obtain ⟨t, ht, hsettling, hevents⟩ := runSteps_settling ⟨hrun, hseq, hstep, hreq⟩ hclk n
  exact ⟨t, ht, hsettling.seq, hsettling.step, hsettling.req, hevents, cmdReady_of_busy hsettling.running.1⟩

/-- R290: the clocks of `k` steps short of TMR are counted off it. -/
theorem runSteps_counts {s : State} (h : Settling s) {l rest : List Nat} (hclk : s.clk = l ++ rest)
    (hsum : l.sum < s.tmr) : runSteps l.length s = .next { s with tmr := s.tmr - l.sum, clk := rest } := by
  induction l generalizing s with
  | nil =>
    rw [List.nil_append] at hclk
    rw [← hclk]
    rfl
  | cons c l ih =>
    rw [List.sum_cons] at hsum
    rw [List.cons_append] at hclk
    rw [List.length_cons, run_succ (step_counts h hclk (by omega)),
      ih (s := { s with tmr := s.tmr - c, clk := l ++ rest }) ⟨h.running, h.seq, h.step, h.req⟩ rfl
        (by simp only; omega), List.sum_cons, Nat.sub_sub]

/-- R291: the delay ends in the step in which the clocks add up to TMR. -/
theorem runSteps_delay {s : State} (h : Settling s) {l later : List Nat} {c : Nat} (hclk : s.clk = l ++ c :: later)
    (hsum : l.sum < s.tmr) (hend : s.tmr ≤ l.sum + c) :
    runSteps (l.length + 1) s =
      .next { s with tmr := 0, clk := later, step := 5, events := .delay :: s.events } := by
  rw [run_add (runSteps_counts h hclk hsum)]
  refine run_succ (step_delayEnds (s := { s with tmr := s.tmr - l.sum, clk := c :: later })
    ⟨h.running, h.seq, h.step, h.req⟩ rfl ?_)
  exact Nat.sub_le_iff_le_add'.2 hend

theorem settleCycles_bound : 5 * Config.clkHz ≤ 1000 * Config.settleCycles := by
  unfold Config.settleCycles
  omega

/-- R291: the OK to step 3 loads TMR. -/
theorem settling_loaded {s t : State} {q : BusReq} {reg val r : Byte} {rest : List BusRsp} (hrun : Running s)
    (hseq : s.seq = .freqSeq) (hstep : s.step = 3) (hreq : s.req = some q) (hop : q.op = .wr8 reg val)
    (hbus : s.bus = ⟨.ok, r⟩ :: rest) (h : step s = .next t) :
    t.step = 4 ∧ t.req = none ∧ t.tmr = Config.settleCycles := by
  have hrel : q.op ≠ .rel := by rw [hop]; nofun
  have hlast : s.step.toNat ≠ s.seq.lastStep := by rw [hstep, hseq]; decide
  have hok : statusAllowed q.op .ok = true := by rw [hop]; rfl
  have hnext : step s = .next (s.afterOk q r rest).nextStep := by
    rw [step_answer hrun hreq hbus hok, answerEffect_ok hrel]
    exact if_neg hlast
  cases h.symm.trans hnext
  refine ⟨?_, rfl, if_pos ⟨hseq, hstep⟩⟩
  show s.step + 1 = 4
  rw [hstep]
  rfl

/-- Settles O31, by the steps of the delay one after the other. -/
theorem settleDelay : Obligations.SettleDelay := by
  refine ⟨settleCycles_bound, fun s t q reg val r rest => settling_loaded, ?_, ?_⟩
  · intro s c later hrun hseq hstep hreq hclk
    have h : Settling s := ⟨hrun, hseq, hstep, hreq⟩
    exact ⟨step_counts h hclk, step_delayEnds h hclk⟩
  · intro s pre later c hrun hseq hstep hreq hclk hsum hend
    have h : Settling s := ⟨hrun, hseq, hstep, hreq⟩
    refine ⟨fun k hk => ?_, runSteps_delay h hclk hsum hend⟩
    have htake : (pre.take k).sum ≤ pre.sum := by
      conv_rhs => rw [← List.take_append_drop k pre, List.sum_append]
      exact Nat.le_add_right _ _
    have hlen : (pre.take k).length = k := List.length_take_of_le hk
    have hcount := runSteps_counts h (l := pre.take k) (rest := pre.drop k ++ c :: later)
      (by rw [← List.append_assoc, List.take_append_drop, hclk]) (by omega)
    rwa [hlen] at hcount

/-! ### The provider -/

/-- Settles O24: with no answer to come the step is the state itself, so every run is. -/
theorem waitsForTheProvider : Obligations.WaitsForTheProvider := by
  intro s q hrun hreq hbus
  have hstay : step s = .next s := by
    rw [step_running hrun]
    simp only [sequencerStep, if_neg hrun.1, hreq, awaitAnswer, hbus]
  refine ⟨hstay, cmdReady_of_busy hrun.1, fun n => ?_⟩
  induction n with
  | zero => rfl
  | succ n ih => rw [run_succ hstay, ih]

end Sys2Proof.Safety

namespace Sys2Proof.Machine

theorem finish_ne_refused (s : State) (x : Refusal) : finish s ≠ .refused x := by
  unfold finish
  split <;> nofun

theorem stepDone_ne_refused (s : State) (x : Refusal) : stepDone s ≠ .refused x := by
  unfold stepDone
  split
  · exact finish_ne_refused s x
  · nofun

theorem failed_ne_refused (s : State) (x : Refusal) : failed s ≠ .refused x := by
  unfold failed
  split <;> nofun

theorem relAnswered_ne_refused (s : State) (x : Refusal) : relAnswered s ≠ .refused x := by
  unfold relAnswered
  split <;> nofun

/-- R110: an allowed answer is never refused. -/
theorem answerEffect_ne_refused {q : BusReq} {a : BusRsp} (hallowed : statusAllowed q.op a.status = true) (s : State)
    (rest : List BusRsp) (x : Refusal) : answerEffect q a (s.answered q a rest) ≠ .refused x := by
  obtain ⟨y, r⟩ := a
  obtain rfl | ⟨hacq, rfl | rfl⟩ | ⟨hacq, hrel, rfl⟩ := statusAllowed_cases hallowed
  · by_cases hrel : q.op = .rel
    · simpa only [answerEffect, hrel] using relAnswered_ne_refused _ x
    · rw [answerEffect_ok hrel]
      exact stepDone_ne_refused _ x
  · simp [answerEffect, hacq, acqAnswered]
  · simp [answerEffect, hacq, acqAnswered]
  · rw [answerEffect_fail hacq hrel]
    exact failed_ne_refused _ x

/-- R110's table of the statuses a request's kind does not allow. -/
theorem statusAllowed_eq_false_iff (op : BusOp) (x : BusStatus) :
    statusAllowed op x = false ↔
      (op = .acq ∧ x = .fail) ∨ (op = .rel ∧ x ≠ .ok) ∨
        (((∃ reg val, op = .wr8 reg val) ∨ ∃ reg, op = .rd8 reg) ∧ (x = .notFound ∨ x = .inUse)) := by
  cases op <;> cases x <;> simp [statusAllowed]

theorem stepDone_keeps {s t : State} (h : stepDone s = .next t) :
    t.bus = s.bus ∧ t.events = s.events ∧ t.req = s.req ∧ t.old = s.old ∧ t.dev = s.dev := by
  obtain ⟨-, hfin⟩ | ⟨-, rfl⟩ := stepDone_cases h
  · obtain ⟨-, rfl⟩ | ⟨-, rfl⟩ | ⟨-, rfl⟩ := finish_cases hfin <;> exact ⟨rfl, rfl, rfl, rfl, rfl⟩
  · exact ⟨rfl, rfl, rfl, rfl, rfl⟩

end Sys2Proof.Machine

namespace Sys2Proof.Safety

open Sys2Proof.Machine

theorem step_refusedAnswer {s : State} {q : BusReq} {a : BusRsp} {rest : List BusRsp} (hrun : Running s)
    (hreq : s.req = some q) (hbus : s.bus = a :: rest) (h : statusAllowed q.op a.status = false) :
    step s = .refused .providerContract := by
  rw [step_running hrun]
  simp [sequencerStep, hrun.1, hreq, awaitAnswer, hbus, h]

/-- Settles O26: exactly the statuses outside R110's table are refused. -/
theorem providerContract : Obligations.ProviderContract := by
  intro s q a rest hrun hreq hbus
  rw [← statusAllowed_eq_false_iff]
  refine ⟨fun hrefused => Bool.eq_false_iff.2 fun hallowed => ?_, step_refusedAnswer hrun hreq hbus⟩
  rw [step_answer hrun hreq hbus hallowed] at hrefused
  exact answerEffect_ne_refused hallowed s rest _ hrefused

/-- Settles O27: the effect of the OK, which the move to the next step and the `done:` line leave alone. -/
theorem answeredTransactions : Obligations.AnsweredTransactions := by
  intro s t q r rest hrun hreq hbus hstep
  have hok : statusAllowed q.op .ok = true := by cases q.op <;> rfl
  rw [step_answer hrun hreq hbus hok] at hstep
  by_cases hrel : q.op = .rel
  · simp only [answerEffect, hrel] at hstep
    obtain ⟨-, rfl⟩ | ⟨-, rfl⟩ := relAnswered_cases hstep <;> simp [hrel]
  · rw [answerEffect_ok hrel] at hstep
    obtain ⟨hbus', hevents, hreq', hold, hdev⟩ := stepDone_keeps hstep
    refine ⟨hbus', hevents, hreq', fun reg val hop => ⟨?_, ?_⟩, fun reg hop => ⟨?_, fun k => ?_⟩⟩
    · rw [State.devRead, hdev]
      simp only [State.afterOk, hop, Memory.read_write_self]
    · rw [hold]
      simp only [State.afterOk, hop]
    · rw [hold]
      simp only [State.afterOk, hop]
    · rw [hdev]
      simp only [State.afterOk, hop]

end Sys2Proof.Safety
end

section
/-! Whole commands (R140, R145, R146, R171, R172, R181, R211 to R214): each is a chain of transactions, from the state
its acceptance leaves to the response handed over. -/

namespace Sys2Proof.Machine

/-- CLOSE after its reset sequence, at its release (R146). -/
def State.atRelease (s : State) (r0 r1 r2 r3 r4 : Byte) (rest : List BusRsp) : State :=
  { (s.goto .closeSeq 0).resetWritten r0 r1 r2 r3 r4 rest with step := 5 }

/-- The four transactions before the delay answered OK (R172), from the state acceptance leaves. -/
def State.beforeDelay (s : State) (m r1 r2 r3 : Byte) (rest : List BusRsp) : State :=
  { s with
    step := 4
    old := m
    tmr := Config.settleCycles
    req := none
    bus := rest
    dev :=
      Memory.write (Memory.write (Memory.write s.dev
        (deviceKey s.addr 0x00) (sleepVariant m)) (deviceKey s.addr 0xFE) s.pre) (deviceKey s.addr 0x00) m
    events :=
      .txn ⟨s.addr, .wr8 0x00 m⟩ ⟨.ok, r3⟩ :: .txn ⟨s.addr, .wr8 0xFE s.pre⟩ ⟨.ok, r2⟩ ::
        .txn ⟨s.addr, .wr8 0x00 (sleepVariant m)⟩ ⟨.ok, r1⟩ :: .txn ⟨s.addr, .rd8 0x00⟩ ⟨.ok, m⟩ :: s.events }

/-- The delay over (R290) and the last write answered OK: ACTUAL and the response are `9 * hz` (R171). -/
def State.tuned (s : State) (hz : Nat) (r : Byte) (rest : List BusRsp) (later : List Nat) : State :=
  (({ s with
      actual := BitVec.ofNat 14 (9 * hz)
      tmr := 0
      req := none
      bus := rest
      clk := later
      dev := Memory.write s.dev (deviceKey s.addr 0x00) (finalMode s.old)
      events := .txn ⟨s.addr, .wr8 0x00 (finalMode s.old)⟩ ⟨.ok, r⟩ :: .delay :: s.events }).setSt .ready).respond 4 .ok
    (BitVec.ofNat 16 (9 * hz))

/-- The step after a write of the group answered OK. -/
def State.groupNext (s : State) (reg val r : Byte) (rest : List BusRsp) : State :=
  { s.afterOk ⟨s.addr, .wr8 reg val⟩ r rest with step := s.step + 1 }

/-- The write group written and the response handed over (R212). -/
def State.groupWritten (s : State) (r0 r1 r2 r3 : Byte) (rest : List BusRsp) : State :=
  { s with
    seq := .idle
    step := 0
    lastErr := .ok
    req := none
    rsp := none
    bus := rest
    dev :=
      Memory.write (Memory.write (Memory.write (Memory.write s.dev
        (deviceKey s.addr s.base) (lowByte s.on)) (deviceKey s.addr (s.base + 1)) (highByte s.on))
        (deviceKey s.addr (s.base + 2)) (lowByte s.off)) (deviceKey s.addr (s.base + 3)) (highByte s.off)
    events :=
      .rsp (responseWord s.seq.op .ok 0) ::
        .txn ⟨s.addr, .wr8 (s.base + 3) (highByte s.off)⟩ ⟨.ok, r3⟩ ::
        .txn ⟨s.addr, .wr8 (s.base + 2) (lowByte s.off)⟩ ⟨.ok, r2⟩ ::
        .txn ⟨s.addr, .wr8 (s.base + 1) (highByte s.on)⟩ ⟨.ok, r1⟩ ::
        .txn ⟨s.addr, .wr8 s.base (lowByte s.on)⟩ ⟨.ok, r0⟩ :: s.events }

/-- The four writes one after the other, the response and its hand-over; each write names the answers after it, and the
last of these lists remains. -/
theorem State.groupWritten_eq (s : State) (r0 r1 r2 r3 : Byte) (l0 l1 l2 rest : List BusRsp) :
    (((((s.groupNext s.base (lowByte s.on) r0 l0).groupNext (s.base + 1) (highByte s.on) r1 l1).groupNext
      (s.base + 2) (lowByte s.off) r2 l2).afterOk ⟨s.addr, .wr8 (s.base + 3) (highByte s.off)⟩ r3 rest).respond
      s.seq.op .ok 0).deliver (responseWord s.seq.op .ok 0) = s.groupWritten r0 r1 r2 r3 rest := by
  simp only [State.groupNext, State.afterOk, State.respond, State.deliver, State.groupWritten]

end Sys2Proof.Machine

namespace Sys2Proof.Safety

open Sys2Proof.Machine

/-- A transaction answered OK, and what follows its effect. -/
theorem reaches_ok {s t : State} {op : BusOp} {r : Byte} {rest : List BusRsp} (hrun : Running s)
    (hreq : s.req = none) (hmicro : s.micro = some (.bus op)) (hbus : s.bus = ⟨.ok, r⟩ :: rest) (hrel : op ≠ .rel)
    (hdone : stepDone (s.afterOk ⟨s.addr, op⟩ r rest) = .next t) : Reaches s t := by
  have hok : statusAllowed op .ok = true := by cases op <;> rfl
  exact reaches_transaction hrun hreq hmicro hbus hok ((answerEffect_ok (q := ⟨s.addr, op⟩) hrel ..).trans hdone)

theorem reaches_next {s : State} {op : BusOp} {r : Byte} {rest : List BusRsp} (hrun : Running s)
    (hreq : s.req = none) (hmicro : s.micro = some (.bus op)) (hbus : s.bus = ⟨.ok, r⟩ :: rest) (hrel : op ≠ .rel)
    (hlast : (s.step.toNat == s.seq.lastStep) = false) :
    Reaches s (s.afterOk ⟨s.addr, op⟩ r rest).nextStep :=
  reaches_ok hrun hreq hmicro hbus hrel (if_neg (beq_eq_false_iff_ne.1 hlast))

/-- A write or a read answered FAIL. -/
theorem step_byteFailed {s : State} {q : BusReq} {r : Byte} {rest : List BusRsp} (hrun : Running s)
    (hreq : s.req = some q) (hacq : q.op ≠ .acq) (hrel : q.op ≠ .rel) (hbus : s.bus = ⟨.fail, r⟩ :: rest) :
    step s = failed (s.afterFail q r rest) := by
  have hfail : statusAllowed q.op .fail = true := by
    cases hop : q.op with
    | acq => exact absurd hop hacq
    | rel => exact absurd hop hrel
    | wr8 reg val | rd8 reg => rfl
  rw [step_answer hrun hreq hbus hfail, answerEffect_fail hacq hrel]

/-! ### RESET and CLOSE -/

theorem failed_of_resetSeq {s : State} (hseq : s.seq = .resetSeq) :
    failed s = .next (s.respond 3 .ioFailure 0) := by
  simp only [failed, hseq]
  rfl

/-- Settles O15: the reset sequence and its response; or the FAIL and what it leaves as it was. -/
theorem resetCommand : Obligations.ResetCommand := by
  constructor
  · intro s r0 r1 r2 r3 r4 rest hst hreq hrsp hhost hbus
    have hrun : Running (s.goto .resetSeq 0) := ⟨nofun, hrsp, hhost⟩
    have hwrites := reaches_resetSequence ⟨hrun, hreq, .inr ⟨.inl rfl, rfl⟩⟩ hbus rfl
    obtain ⟨n, hn⟩ := hwrites.trans (reaches_delivered hhost rfl)
    refine ⟨_, n, exec_resetCmd_of_ready hst, hn.trans ?_⟩
    rw [hreq, hrsp]
    rfl
  · intro s q reg val r rest hrun hseq hst hreq hop hbus
    have hseq' : (s.afterFail q r rest).seq = .resetSeq := (State.afterFail_seq ..).trans hseq
    rw [← group_of_reset (.inr (.inr hseq))]
    refine ⟨_, (step_writeFailed hrun hreq hop hbus).trans (failed_of_resetSeq hseq'), ?_⟩
    exact ⟨(State.afterFail_st ..).trans hst, State.afterFail_held .., State.afterFail_actual ..,
      State.afterFail_addr .., rfl, rfl, State.afterFail_req .., rfl, rfl, State.afterFail_events ..,
      fun _ hk => State.read_afterFail_other hk⟩

theorem reaches_closed {s : State} {r0 r1 r2 r3 r4 r5 : Byte} {rest : List BusRsp}
    (hrun : Running (s.goto .closeSeq 0)) (hreq : s.req = none)
    (hbus : s.bus = ⟨.ok, r0⟩ :: ⟨.ok, r1⟩ :: ⟨.ok, r2⟩ :: ⟨.ok, r3⟩ :: ⟨.ok, r4⟩ :: ⟨.ok, r5⟩ :: rest) :
    Reaches (s.goto .closeSeq 0)
      ((s.atRelease r0 r1 r2 r3 r4 (⟨.ok, r5⟩ :: rest)).released .closed 2 .ok r5 rest) := by
  have hrun' : Running (s.atRelease r0 r1 r2 r3 r4 (⟨.ok, r5⟩ :: rest)) := hrun
  refine .trans (reaches_resetSequence ⟨hrun, hreq, .inr ⟨.inr rfl, rfl⟩⟩ hbus rfl) ?_
  refine .trans (.of_step (step_issue hrun' rfl rfl)) ?_
  exact reaches_released (s := State.request _ _) hrun' rfl rfl rfl

/-- Settles O16: the reset sequence, the release and its response. -/
theorem closeCommand : Obligations.CloseCommand := by
  intro s r0 r1 r2 r3 r4 r5 rest hst hreq hrsp hhost hbus
  obtain ⟨n, hn⟩ := reaches_closed ⟨nofun, hrsp, hhost⟩ hreq hbus
  refine ⟨_, n, exec_closeCmd_of_ready hst, hn.trans ?_⟩
  rw [hreq, hrsp]
  rfl

/-! ### SETFREQ -/

theorem failed_of_freqSeq {s : State} (hseq : s.seq = .freqSeq) :
    failed s = .next ((s.setSt .ready).respond 4 .ioFailure 0) := by
  simp only [failed, hseq]
  rfl

/-- Settles O19: the FAIL's step and what it leaves as it was. -/
theorem setFreqFailure : Obligations.SetFreqFailure := by
  intro s q r rest hrun hseq hreq hop hbus
  have hacq : q.op ≠ .acq := by
    obtain ⟨reg, val, hop⟩ | ⟨reg, hop⟩ := hop <;> simp [hop]
  have hrel : q.op ≠ .rel := by
    obtain ⟨reg, val, hop⟩ | ⟨reg, hop⟩ := hop <;> simp [hop]
  have hseq' : (s.afterFail q r rest).seq = .freqSeq := (State.afterFail_seq ..).trans hseq
  have hgroup : s.group = [0x00, 0xFE] := by simp only [State.group, hseq]
  rw [← hgroup]
  refine ⟨_, (step_byteFailed hrun hreq hacq hrel hbus).trans (failed_of_freqSeq hseq'), ?_⟩
  exact ⟨rfl, rfl, rfl, State.afterFail_req .., rfl, rfl, State.afterFail_actual .., State.afterFail_held ..,
    State.afterFail_addr .., State.afterFail_old .., State.afterFail_events ..,
    fun _ hk => State.read_afterFail_other hk⟩

theorem reaches_beforeDelay {s : State} {m r1 r2 r3 : Byte} {rest : List BusRsp} (hrun : Running (s.goto .freqSeq 0))
    (hreq : s.req = none)
    (hbus : s.bus = ⟨.ok, m⟩ :: ⟨.ok, r1⟩ :: ⟨.ok, r2⟩ :: ⟨.ok, r3⟩ :: rest) :
    Reaches (s.goto .freqSeq 0) ((s.goto .freqSeq 0).beforeDelay m r1 r2 r3 rest) := by
  refine .trans (reaches_next hrun hreq rfl hbus nofun rfl) ?_
  refine .trans (reaches_next hrun rfl rfl rfl nofun rfl) ?_
  refine .trans (reaches_next hrun rfl rfl rfl nofun rfl) ?_
  exact reaches_ok hrun rfl rfl rfl nofun rfl

theorem reaches_tuned {s : State} {hz : Nat} {r : Byte} {rest : List BusRsp} {l later : List Nat} {c : Nat}
    (h : Settling s) (hbus : s.bus = ⟨.ok, r⟩ :: rest) (hhz : s.hzl.toNat = hz) (hclk : s.clk = l ++ c :: later)
    (hsum : l.sum < s.tmr) (hend : s.tmr ≤ l.sum + c) : Reaches s (s.tuned hz r rest later) := by
  subst hhz
  obtain ⟨hrun, hseq, hstep, hreq⟩ := h
  refine .trans ⟨_, runSteps_delay ⟨hrun, hseq, hstep, hreq⟩ hclk hsum hend⟩ ?_
  refine reaches_ok (op := .wr8 0x00 (finalMode s.old)) hrun hreq (micro_freqSeq hseq) hbus nofun ?_
  refine (if_pos (show (5 : BitVec 3).toNat = s.seq.lastStep by rw [hseq]; rfl)).trans ?_
  simp only [finish, State.afterOk, hseq]
  rfl

/-- Settles O18: the transactions before the delay, the delay, the last write and its response. -/
theorem setFreqCommand : Obligations.SetFreqCommand := by
  intro s hz m r1 r2 r3 r5 rest pre later c hst hreq hrsp hhost hlo hhi hclk hsum hend hbus
  have hhz : (BitVec.ofNat 16 hz).toNat = hz := Nat.mod_eq_of_lt (by omega)
  have hrun : Running
      (((s.latchFreq (BitVec.ofNat 16 hz) (prescaleByte hz)).setSt .reconfiguring).goto .freqSeq 0) :=
    ⟨nofun, hrsp, hhost⟩
  have hdelay := reaches_beforeDelay hrun hreq hbus
  obtain ⟨n, hn⟩ := (hdelay.trans (reaches_tuned ⟨hrun, rfl, rfl, rfl⟩ rfl hhz hclk hsum hend)).trans
    (reaches_delivered hhost rfl)
  refine ⟨_, n, exec_setFreq_of_ready hst hlo hhi, hn.trans ?_⟩
  rw [hreq, hrsp, hst]
  rfl

/-! ### SETCH and SETALL -/

/-- The block is about to issue the `k`-th write of the write group (R212). -/
structure AtGroupWrite (k : Nat) (s : State) : Prop where
  running : Running s
  req : s.req = none
  seq : s.seq = .chanSeq ∨ s.seq = .allSeq
  step : s.step.toNat = k

/-- A write of the group but the last leads to the next one. -/
theorem reaches_groupNext {s : State} {k : Nat} {reg val r : Byte} {rest : List BusRsp} (h : AtGroupWrite k s)
    (hk : k < 3) (hentry : groupStep s.on s.off s.base k = some (.bus (.wr8 reg val)))
    (hbus : s.bus = ⟨.ok, r⟩ :: rest) :
    Reaches s (s.groupNext reg val r rest) ∧ AtGroupWrite (k + 1) (s.groupNext reg val r rest) := by
  obtain ⟨hrun, hreq, hseq, rfl⟩ := h
  have hlast : s.step.toNat ≠ s.seq.lastStep := by
    obtain hseq | hseq := hseq <;> simp only [hseq, SeqId.lastStep] <;> omega
  have hfreq : s.seq ≠ .freqSeq := by
    obtain hseq | hseq := hseq <;> simp [hseq]
  refine ⟨reaches_ok hrun hreq ((micro_writeGroup hseq).trans hentry) hbus nofun ((if_neg hlast).trans ?_),
    hrun, rfl, hseq, ?_⟩
  · rw [State.nextStep, if_neg fun hload => hfreq hload.1]
    rfl
  · show (s.step + 1).toNat = s.step.toNat + 1
    rw [BitVec.toNat_add]
    exact Nat.mod_eq_of_lt (show s.step.toNat + 1 < 8 by omega)

/-- The last write of the group, and the response handed over. -/
theorem reaches_groupLast {s : State} {reg val r : Byte} {rest : List BusRsp} (h : AtGroupWrite 3 s)
    (hentry : groupStep s.on s.off s.base 3 = some (.bus (.wr8 reg val))) (hbus : s.bus = ⟨.ok, r⟩ :: rest) :
    Reaches s (((s.afterOk ⟨s.addr, .wr8 reg val⟩ r rest).respond s.seq.op .ok 0).deliver
      (responseWord s.seq.op .ok 0)) := by
  obtain ⟨hrun, hreq, hseq, hstep⟩ := h
  have hdone : stepDone (s.afterOk ⟨s.addr, .wr8 reg val⟩ r rest) =
      .next ((s.afterOk ⟨s.addr, .wr8 reg val⟩ r rest).respond s.seq.op .ok 0) := by
    obtain hseq | hseq := hseq <;> simp only [stepDone, finish, State.afterOk, hseq, hstep] <;> rfl
  have hmicro : s.micro = some (.bus (.wr8 reg val)) := by rw [micro_writeGroup hseq, hstep, hentry]
  exact (reaches_ok hrun hreq hmicro hbus nofun hdone).trans (reaches_delivered hrun.2.2 rfl)

/-- R212: the four writes of the group answered OK and the response handed over. -/
theorem reaches_groupWritten {s : State} {r0 r1 r2 r3 : Byte} {rest : List BusRsp} (h0 : AtGroupWrite 0 s)
    (hbus : s.bus = ⟨.ok, r0⟩ :: ⟨.ok, r1⟩ :: ⟨.ok, r2⟩ :: ⟨.ok, r3⟩ :: rest) :
    Reaches s (s.groupWritten r0 r1 r2 r3 rest) := by
  obtain ⟨hreach0, h1⟩ := reaches_groupNext (reg := s.base) (val := lowByte s.on) h0 (by decide) rfl hbus
  obtain ⟨hreach1, h2⟩ := reaches_groupNext (reg := s.base + 1) (val := highByte s.on) h1 (by decide) rfl rfl
  obtain ⟨hreach2, h3⟩ := reaches_groupNext (reg := s.base + 2) (val := lowByte s.off) h2 (by decide) rfl rfl
  have hreach3 := reaches_groupLast (reg := s.base + 3) (val := highByte s.off) h3 rfl rfl
  rw [← State.groupWritten_eq]
  exact hreach0.trans (hreach1.trans (hreach2.trans hreach3))

/-- Settles O20: SETCH's write group, the base as one number. -/
theorem setChCommand : Obligations.SetChCommand := by
  intro s ch inv duty r0 r1 r2 r3 rest hst hreq hrsp hhost hch hbus
  obtain ⟨n, hn⟩ := reaches_groupWritten
    (s := (s.latchPair (onTick inv duty) (offTick inv duty) (channelBase ch)).goto .chanSeq 0)
    ⟨⟨nofun, hrsp, hhost⟩, hreq, .inl rfl, rfl⟩ hbus
  have hreg (j : Nat) : channelBase ch + BitVec.ofNat 8 j = BitVec.ofNat 8 (6 + j + 4 * ch) := by
    rw [channelBase_eq, BitVec.ofNat_add_ofNat, Nat.add_right_comm]
  refine ⟨_, n, exec_setCh_of_ready hst hch inv duty, hn.trans ?_⟩
  rw [hreq, hrsp, ← hreg 1, ← hreg 2, ← hreg 3, ← channelBase_eq]
  rfl

/-- Settles O21: SETALL's write group. -/
theorem setAllCommand : Obligations.SetAllCommand := by
  intro s inv duty r0 r1 r2 r3 rest hst hreq hrsp hhost hbus
  obtain ⟨n, hn⟩ := reaches_groupWritten
    (s := (s.latchPair (onTick inv duty) (offTick inv duty) Config.regAllLed).goto .allSeq 0)
    ⟨⟨nofun, hrsp, hhost⟩, hreq, .inr rfl, rfl⟩ hbus
  refine ⟨_, n, exec_setAll_of_ready hst inv duty, hn.trans ?_⟩
  rw [hreq, hrsp]
  rfl

end Sys2Proof.Safety
end

section
/-! What the invariant says of a state, part by part: the handle, the outstanding request, the registers a command
writes, and the device registers. -/

namespace Sys2Proof.Safety

open Sys2Proof.Machine

/-! ### The parts used alone -/

section
variable {s : State} (h : Inv s)
include h

theorem Inv.lifecycle : lifecycleAgrees s = true := h.1
theorem Inv.position : positionAgrees s = true := h.2.1
theorem Inv.held : heldAgrees s = true := h.2.2.1
theorem Inv.request : requestAgrees s = true := h.2.2.2.1
theorem Inv.latches : latchesAgree s = true := h.2.2.2.2.2.2.1

end

/-! ### Registers -/

/-- The registers the block writes, by address (R67, R71). -/
theorem writable_iff (reg : Byte) :
    writable reg = true ↔
      reg = 0x00 ∨ (0x06 ≤ reg.toNat ∧ reg.toNat ≤ 0x45) ∨ (0xFA ≤ reg.toNat ∧ reg.toNat ≤ 0xFE) := by
  simp [writable, or_assoc]

/-- R68, R211: the four registers from a channel's base or from ALL_LED's. -/
theorem writable_add {b j : Byte} (hb : channelBaseLegal b = true ∨ b = Config.regAllLed) (hj : j.toNat ≤ 3) :
    writable (b + j) = true := by
  rw [writable_iff, BitVec.toNat_add]
  obtain hb | rfl := hb
  · simp only [channelBaseLegal, Bool.and_eq_true, decide_eq_true_eq] at hb
    omega
  · have hall : (Config.regAllLed).toNat = 0xFA := rfl
    omega

/-- R13: while a sequence runs its group holds registers the block writes. -/
theorem writable_of_mem_group {s : State} (h : latchesAgree s = true) {reg : Byte} (hreg : reg ∈ s.group) :
    writable reg = true := by
  have hreset : ∀ x ∈ ([0x00, 0xFA, 0xFB, 0xFC, 0xFD] : List Byte), writable x = true := by decide
  have hfreq : ∀ x ∈ ([0x00, 0xFE] : List Byte), writable x = true := by decide
  have hgroup (hb : channelBaseLegal s.base = true ∨ s.base = Config.regAllLed)
      (hmem : reg ∈ [s.base, s.base + 1, s.base + 2, s.base + 3]) : writable reg = true := by
    simp only [List.mem_cons, List.not_mem_nil, or_false] at hmem
    obtain rfl | rfl | rfl | rfl := hmem
    · simpa using writable_add (j := 0) hb (by decide)
    · exact writable_add hb (by decide)
    · exact writable_add hb (by decide)
    · exact writable_add hb (by decide)
  cases hseq : s.seq <;> simp only [State.group, hseq] at hreg <;>
    simp only [latchesAgree, hseq, Bool.and_eq_true, beq_iff_eq] at h
  case idle => simp at hreg
  case openSeq => exact hreset reg hreg
  case closeSeq => exact hreset reg hreg
  case resetSeq => exact hreset reg hreg
  case freqSeq => exact hfreq reg hreg
  case chanSeq => exact hgroup (.inl h.2) hreg
  case allSeq => exact hgroup (.inr h.2) hreg

/-- The tables write registers of the command's group (R13, R244). -/
theorem mem_group_of_micro {s : State} {reg val : Byte} (h : s.micro = some (.bus (.wr8 reg val))) :
    reg ∈ s.group := by
  revert h
  simp only [State.micro, State.group]
  generalize s.step.toNat = k
  cases s.seq <;> simp only [openStep, closeStep, resetWrite, freqStep, groupStep] <;> (repeat' split) <;> simp_all

/-! ### The device registers -/

/-- `deviceAgrees` as a property of the list. -/
def DevAgrees (m : List Host.Cell) : Prop :=
  (Memory.wf m && m.all fun c => decide (c.1 < 32768) && writable (BitVec.ofNat 8 c.1)) = true

theorem ofNat_deviceKey (a : BusAddr) (reg : Byte) : BitVec.ofNat 8 (deviceKey a reg) = reg := by
  apply BitVec.eq_of_toNat_eq
  have hreg := reg.isLt
  rw [BitVec.toNat_ofNat, deviceKey]
  omega

theorem deviceKey_lt (a : BusAddr) (reg : Byte) : deviceKey a reg < 32768 := by
  have ha := a.isLt
  have hreg := reg.isLt
  rw [deviceKey]
  omega

theorem devAgrees_write {m : List Host.Cell} (h : DevAgrees m) (a : BusAddr) {reg : Byte}
    (hreg : writable reg = true) (val : Byte) : DevAgrees (Memory.write m (deviceKey a reg) val) := by
  obtain ⟨hwf, hall⟩ := Bool.and_eq_true_iff.1 h
  refine Bool.and_eq_true_iff.2 ⟨Memory.wf_write _ _ hwf, Memory.all_write ?_ hall⟩
  simp [ofNat_deviceKey, deviceKey_lt, hreg]

theorem devAgrees_forgetAll {s : State} (h : DevAgrees s.dev) (a : BusAddr) {l : List Byte}
    (hl : ∀ reg ∈ l, writable reg = true) : DevAgrees (s.devForgetAll a l).dev := by
  induction l generalizing s with
  | nil => exact h
  | cons reg l ih =>
    obtain ⟨hreg, hrest⟩ := List.forall_mem_cons.1 hl
    exact ih (devAgrees_write h a hreg _) hrest

theorem deviceAgrees_afterFail {s : State} (hdev : deviceAgrees s = true) (hlatches : latchesAgree s = true)
    (q : BusReq) (r : Byte) (rest : List BusRsp) : deviceAgrees (s.afterFail q r rest) = true :=
  devAgrees_forgetAll (s := s.answered q ⟨.fail, r⟩ rest) hdev _ fun _ => writable_of_mem_group hlatches

theorem deviceAgrees_afterOk {s : State} (hdev : deviceAgrees s = true) {q : BusReq}
    (hq : ∀ reg val, q.op = .wr8 reg val → writable reg = true) (r : Byte) (rest : List BusRsp) :
    deviceAgrees (s.afterOk q r rest) = true := by
  obtain ⟨a, op⟩ := q
  cases op with
  | wr8 reg val => exact devAgrees_write hdev a (hq reg val rfl) val
  | acq | rel | rd8 reg => exact hdev

/-! ### The handle and the outstanding request -/

/-- R30: with a sequence running the handle is held, but for OPEN's first step. -/
theorem held_of_busy {s : State} (hlife : lifecycleAgrees s = true) (hheld : heldAgrees s = true)
    (hbusy : s.seq ≠ .idle) : s.held = !(s.seq == .openSeq && s.step == 0) := by
  simp only [heldAgrees, beq_iff_eq] at hheld
  rw [hheld]
  cases hseq : s.seq <;> simp only [lifecycleAgrees, hseq, beq_iff_eq] at hlife
  case idle => exact absurd hseq hbusy
  case openSeq => simp [hlife, bne]
  case closeSeq => simp [hlife]
  case resetSeq => simp [hlife]
  case freqSeq => simp [hlife]
  case chanSeq => simp [hlife]
  case allSeq => simp [hlife]

/-- R61, R143: `op` is what the block asks of the provider at (SEQ, STEP), by the table or on OPEN's failure path. -/
def Asks (s : State) (op : BusOp) : Prop :=
  s.micro = some (.bus op) ∨ (s.seq = .openSeq ∧ s.step ≠ 0 ∧ op = .rel)

theorem asks_of_request {s : State} (h : requestAgrees s = true) {q : BusReq} (hreq : s.req = some q) :
    q.addr7 = s.addr ∧ Asks s q.op := by
  simpa [requestAgrees, hreq, Asks, and_assoc] using h

theorem busy_of_asks {s : State} {op : BusOp} (h : Asks s op) : s.seq ≠ .idle := by
  rintro hseq
  obtain h | ⟨h, -⟩ := h
  · simp [State.micro, hseq] at h
  · simp [hseq] at h

/-- An idle block has nothing outstanding. -/
theorem req_of_idle {s : State} (h : requestAgrees s = true) (hseq : s.seq = .idle) : s.req = none := by
  cases hreq : s.req with
  | none => rfl
  | some q => exact absurd hseq (busy_of_asks (asks_of_request h hreq).2)

/-- Only OPEN's first step acquires; it asks nothing else. -/
theorem asks_acq_iff {s : State} {op : BusOp} (h : Asks s op) : op = .acq ↔ s.seq = .openSeq ∧ s.step = 0 := by
  obtain h | ⟨-, hstep, rfl⟩ := h
  · refine ⟨fun hop => micro_acq (hop ▸ h), fun ⟨hseq, hstep⟩ => ?_⟩
    rw [micro_openSeq hseq, hstep] at h
    cases h
    rfl
  · exact ⟨nofun, fun ⟨_, hzero⟩ => absurd hzero hstep⟩

theorem asks_rel {s : State} (h : Asks s .rel) : s.seq = .closeSeq ∧ s.step = 5 ∨ s.seq = .openSeq := by
  obtain h | ⟨hseq, -⟩ := h
  · exact .inl (micro_rel h)
  · exact .inr hseq

theorem asks_rd8 {s : State} {reg : Byte} (h : Asks s (.rd8 reg)) : s.seq = .freqSeq ∧ reg = 0x00 := by
  obtain h | ⟨-, -, hop⟩ := h
  · exact ⟨(micro_rd8 h).1, (micro_rd8 h).2.2⟩
  · cases hop

theorem asks_wr8 {s : State} {reg val : Byte} (h : Asks s (.wr8 reg val)) (hlatches : latchesAgree s = true) :
    writable reg = true := by
  obtain h | ⟨-, -, hop⟩ := h
  · exact writable_of_mem_group hlatches (mem_group_of_micro h)
  · cases hop

/-- R63: ACQ is asked for without a handle. -/
theorem held_of_asks_acq {s : State} (hinv : Inv s) (h : Asks s .acq) : s.held = false := by
  obtain ⟨hseq, hstep⟩ := (asks_acq_iff h).1 rfl
  rw [held_of_busy hinv.lifecycle hinv.held (busy_of_asks h), hseq, hstep]
  rfl

/-- R61, R62, R64: everything else is asked for with the handle. -/
theorem held_of_asks {s : State} (hinv : Inv s) {op : BusOp} (h : Asks s op) (hacq : op ≠ .acq) : s.held = true := by
  rw [held_of_busy hinv.lifecycle hinv.held (busy_of_asks h), Bool.not_eq_true', Bool.and_eq_false_iff,
    beq_eq_false_iff_ne, beq_eq_false_iff_ne, ← not_and_or]
  exact mt (asks_acq_iff h).2 hacq

/-- CLOSE's last step is its release. -/
theorem step_ne_five_of_closeSeq {s : State} {op : BusOp} (h : Asks s op) (hrel : op ≠ .rel)
    (hseq : s.seq = .closeSeq) : s.step.toNat ≠ 5 := by
  intro hstep
  obtain h | ⟨-, -, hop⟩ := h
  · rw [micro_closeSeq hseq, hstep] at h
    cases h
    exact hrel rfl
  · exact hrel hop

end Sys2Proof.Safety
end

section
/-! Every step keeps the invariant. A step of a running command passes through a state in which the answer has taken
effect and nothing is outstanding (`Answered`); from it the sequence moves on, or the command ends (`Completed`). -/

namespace Sys2Proof.Safety

open Sys2Proof.Machine

/-- As many responses as accepted commands, and one command still to be answered (R108). -/
def OneUnanswered (s : State) : Prop := s.events.countP isCommand = s.events.countP isResponse + 1

/-! ### A command ends -/

/-- What holds just before a response is put on the port, and before a command's `accept:` line. -/
structure Completed (u : State) : Prop where
  st : u.st = .unopened ∨ u.st = .ready ∨ u.st = .closed
  held : u.held = (u.st == .ready)
  req : u.req = none
  actual : actualAgrees u = true
  dev : deviceAgrees u = true
  handle : handleAccounted u = true
  unanswered : OneUnanswered u

theorem Completed.inv_respond {u : State} (h : Completed u) (op : BitVec 4) (e : ErrKind) (r : BitVec 16) :
    Inv (u.respond op e r) := by
  have hst := h.st
  refine ⟨?_, rfl, ?_, ?_, ?_, h.actual, rfl, h.dev, h.handle, ?_⟩
  · obtain hst | hst | hst := hst <;> simp [lifecycleAgrees, hst]
  · have hheld := h.held
    obtain hst | hst | hst := hst <;> simp_all [heldAgrees]
  · simp [requestAgrees, h.req]
  · simp [responseAgrees, responseWord_err, responseWord_high]
  · simpa [responsesAccounted, OneUnanswered] using h.unanswered

/-- ACTUAL agrees still if a block that has not reached READY had not reached it before (R33). -/
theorem actualAgrees_of {s t : State} (h : actualAgrees s = true) (hactual : t.actual = s.actual)
    (hst : t.st = .unopened ∨ t.st = .opening → s.st = .unopened ∨ s.st = .opening) : actualAgrees t = true := by
  simp only [actualAgrees, hactual, Bool.or_eq_true, Bool.and_eq_true, Bool.not_eq_true', Bool.or_eq_false_iff,
    beq_iff_eq, beq_eq_false_iff_ne] at h ⊢
  tauto

/-! ### A sequence runs -/

/-- R30: the handle is held by a running sequence, but for OPEN's first step. -/
theorem heldAgrees_of_busy {t : State} (hlife : lifecycleAgrees t = true) (hbusy : t.seq ≠ .idle)
    (hopen : t.seq = .openSeq → t.step ≠ 0) (hheld : t.held = true) : heldAgrees t = true := by
  cases hseq : t.seq <;> simp only [lifecycleAgrees, hseq, beq_iff_eq] at hlife
  case idle => exact absurd hseq hbusy
  case openSeq =>
    have hstep : (t.step != 0) = true := bne_iff_ne.2 (hopen hseq)
    simp only [heldAgrees, hlife, hheld, hstep]
    rfl
  all_goals simp [heldAgrees, hlife, hheld]

/-- What holds of a running sequence, beside STEP, HELD and the outstanding request. -/
structure InSequence (u : State) : Prop where
  busy : u.seq ≠ .idle
  life : lifecycleAgrees u = true
  rsp : u.rsp = none
  actual : actualAgrees u = true
  latches : latchesAgree u = true
  dev : deviceAgrees u = true
  handle : handleAccounted u = true
  unanswered : OneUnanswered u

theorem InSequence.inv {u : State} (h : InSequence u) (hpos : positionAgrees u = true) (hheld : heldAgrees u = true)
    (hreq : requestAgrees u = true) : Inv u := by
  have hbusy : (u.seq != .idle) = true := bne_iff_ne.2 h.busy
  refine ⟨h.life, hpos, hheld, hreq, ?_, h.actual, h.latches, h.dev, h.handle, ?_⟩
  · simp [responseAgrees, h.rsp]
  · simpa [responsesAccounted, OneUnanswered, hbusy] using h.unanswered

/-- An answer has taken effect: nothing is outstanding and the handle is held. -/
structure Answered (u : State) : Prop extends InSequence u where
  position : positionAgrees u = true
  held : u.held = true
  req : u.req = none

theorem toNat_step_succ {q : SeqId} {k : BitVec 3} (hpos : stepInTable q k = true) (hlast : k.toNat ≠ q.lastStep) :
    (k + 1).toNat = k.toNat + 1 ∧ k.toNat + 1 ≤ q.lastStep := by
  have hle : k.toNat ≤ q.lastStep := of_decide_eq_true hpos
  have hfive : q.lastStep ≤ 5 := by cases q <;> decide
  rw [BitVec.toNat_add]
  exact ⟨Nat.mod_eq_of_lt (show k.toNat + 1 < 8 by omega), by omega⟩

section
variable {u : State} (h : Answered u)
include h

/-- The table's next step. -/
theorem Answered.inv_nextStep (hlast : u.step.toNat ≠ u.seq.lastStep) : Inv u.nextStep := by
  obtain ⟨hsucc, hle⟩ := toNat_step_succ h.position hlast
  have hne : u.step + 1 ≠ 0 := fun hzero => Nat.succ_ne_zero _ (hsucc.symm.trans (congrArg BitVec.toNat hzero))
  refine InSequence.inv (u := u.nextStep) { h.toInSequence with } ?_ ?_ ?_
  · exact decide_eq_true (hsucc.trans_le hle)
  · exact heldAgrees_of_busy h.life h.busy (fun _ => hne) h.held
  · simp [requestAgrees, h.req]

/-- OPEN issues its release after a FAIL (R143). -/
theorem Answered.inv_requestRel (hseq : u.seq = .openSeq) (hstep : u.step ≠ 0) : Inv (u.request .rel) := by
  refine InSequence.inv (u := u.request .rel) { h.toInSequence with } h.position ?_ ?_
  · exact heldAgrees_of_busy h.life h.busy (fun _ => hstep) h.held
  · have hstep' : (u.step != 0) = true := bne_iff_ne.2 hstep
    simp only [requestAgrees, State.request, hseq, hstep', beq_self_eq_true, Bool.and_true, Bool.or_true]

/-- CLOSE skips to its release after a FAIL (R147). -/
theorem Answered.inv_gotoRelease (hseq : u.seq = .closeSeq) : Inv (u.goto .closeSeq 5) := by
  have hgoto : u.goto .closeSeq 5 = { u with step := 5 } := by rw [State.goto, ← hseq]
  rw [hgoto]
  refine InSequence.inv (u := { u with step := 5 }) { h.toInSequence with } ?_ ?_ ?_
  · simp [positionAgrees, stepInTable, hseq, SeqId.lastStep]
  · exact heldAgrees_of_busy h.life h.busy (fun _ => by simp) h.held
  · simp [requestAgrees, h.req]

/-- The command ends in READY. -/
theorem Answered.completed_setReady : Completed (u.setSt .ready) where
  st := .inr (.inl rfl)
  held := h.held
  req := h.req
  actual := actualAgrees_of h.actual rfl (by simp)
  dev := h.dev
  handle := h.handle
  unanswered := h.unanswered

theorem Answered.completed (hst : u.st = .ready) : Completed u := by
  have hsame : u.setSt .ready = u := by rw [State.setSt, ← hst]
  rw [← hsame]
  exact h.completed_setReady

/-- SETFREQ ends with ACTUAL written (R171). -/
theorem Answered.completed_tuned (hseq : u.seq = .freqSeq) :
    Completed ({ u with actual := BitVec.ofNat 14 (adj u.hzl.toNat) }.setSt .ready) := by
  have hrange : 40 ≤ u.hzl.toNat ∧ u.hzl.toNat ≤ 1000 := by
    have hlatches := h.latches
    simp only [latchesAgree, hseq, Bool.and_eq_true] at hlatches
    exact (inRange_iff _).1 hlatches.1
  have hlegal : frequencyLegal (BitVec.ofNat 14 (adj u.hzl.toNat)) = true := by
    have hnum : (BitVec.ofNat 14 (adj u.hzl.toNat)).toNat = 9 * u.hzl.toNat :=
      Nat.mod_eq_of_lt (show 9 * u.hzl.toNat < 16384 by omega)
    simp only [frequencyLegal, hnum, Bool.and_eq_true, decide_eq_true_eq]
    omega
  refine { h.completed_setReady with actual := ?_ }
  simp [actualAgrees, hlegal]

end

/-! ### From an outstanding request to its answer -/

theorem unanswered_of_busy {s : State} (h : responsesAccounted s = true) (hseq : s.seq ≠ .idle) : OneUnanswered s := by
  have hbusy : (s.seq != .idle) = true := bne_iff_ne.2 hseq
  simpa [responsesAccounted, OneUnanswered, hbusy] using h

/-- A transaction other than an acquisition or a release leaves the handle's account alone. -/
theorem handleAccounted_txn {s t : State} (h : handleAccounted s = true) {q : BusReq} {a : BusRsp}
    (hevents : t.events = .txn q a :: s.events) (hheld : t.held = s.held)
    (hacq : isAcquired (.txn q a) = false) (hrel : q.op ≠ .rel) : handleAccounted t = true := by
  have hrel' : isReleased (.txn q a) = false := beq_eq_false_iff_ne.2 hrel
  simpa [handleAccounted, hevents, hheld, hacq, hrel'] using h

theorem oneUnanswered_txn {s t : State} (h : OneUnanswered s) {q : BusReq} {a : BusRsp}
    (hevents : t.events = .txn q a :: s.events) : OneUnanswered t := by
  simpa [OneUnanswered, hevents, isCommand, isResponse] using h

section
variable {s : State} (hinv : Inv s) {q : BusReq} (hreq : s.req = some q)
include hinv hreq

theorem asks_of_inv : Asks s q.op := (asks_of_request hinv.request hreq).2

/-- R148: an OK to ACQ is the acquisition of the handle then held. -/
theorem handleAccounted_afterOk (hrel : q.op ≠ .rel) (r : Byte) (rest : List BusRsp) :
    handleAccounted (s.afterOk q r rest) = true := by
  have hasks := asks_of_inv hinv hreq
  have hheld : q.op = .acq → s.held = false := fun hop => held_of_asks_acq hinv (hop ▸ hasks)
  obtain ⟨-, -, -, -, -, -, -, -, hhandle, -⟩ := hinv
  obtain ⟨a, op⟩ := q
  cases op with
  | acq => simpa [handleAccounted, State.afterOk, isAcquired, isReleased, hheld rfl] using hhandle
  | rel => exact absurd rfl hrel
  | wr8 reg val => exact handleAccounted_txn hhandle rfl rfl rfl nofun
  | rd8 reg => exact handleAccounted_txn hhandle rfl rfl rfl nofun

/-- With the OK the handle is held, by the acquisition or since before. -/
theorem held_afterOk (r : Byte) (rest : List BusRsp) : (s.afterOk q r rest).held = true := by
  have hasks := asks_of_inv hinv hreq
  obtain ⟨a, op⟩ := q
  cases op with
  | acq => rfl
  | rel | wr8 reg val | rd8 reg =>
    have hheld : s.held = true := held_of_asks hinv hasks (by simp)
    exact hheld

/-- R142: a failed ACQ ends OPEN without a handle. -/
theorem completed_notAcquired (hacq : q.op = .acq) {x : BusStatus} (hx : x ≠ .ok) (r : Byte) (rest : List BusRsp) :
    Completed ((s.answered q ⟨x, r⟩ rest).setSt .unopened) := by
  have hasks := asks_of_inv hinv hreq
  have hheld : s.held = false := held_of_asks_acq hinv (hacq ▸ hasks)
  obtain ⟨hlife, -, -, -, -, hactual, -, hdev, hhandle, hresponses⟩ := hinv
  obtain ⟨hseq, -⟩ := (asks_acq_iff hasks).1 hacq
  have hst : s.st = .opening := by simpa [lifecycleAgrees, hseq] using hlife
  exact {
    st := .inl rfl
    held := hheld
    req := rfl
    actual := actualAgrees_of hactual rfl fun _ => .inr hst
    dev := hdev
    handle := handleAccounted_txn hhandle rfl rfl (by simp [isAcquired, hx]) (by simp [hacq])
    unanswered := oneUnanswered_txn (unanswered_of_busy hresponses (busy_of_asks hasks)) rfl }

/-- R146, R143: REL ends CLOSE, or an OPEN that failed. -/
theorem completed_released (hrel : q.op = .rel) {x : Lifecycle} (hx : x = .closed ∨ (x = .unopened ∧ s.seq = .openSeq))
    (r : Byte) (rest : List BusRsp) :
    Completed ({ s.answered q ⟨.ok, r⟩ rest with held := false }.setSt x) := by
  have hasks := asks_of_inv hinv hreq
  have hheld : s.held = true := held_of_asks hinv hasks (by simp [hrel])
  obtain ⟨hlife, -, -, -, -, hactual, -, hdev, hhandle, hresponses⟩ := hinv
  have hacc : handleAccounted ({ s.answered q ⟨.ok, r⟩ rest with held := false }.setSt x) = true := by
    have hop : (BusOp.rel == BusOp.acq) = false := rfl
    simpa [handleAccounted, isAcquired, isReleased, hrel, hheld, hop] using hhandle
  have hone := oneUnanswered_txn (t := { s.answered q ⟨.ok, r⟩ rest with held := false }.setSt x)
    (unanswered_of_busy hresponses (busy_of_asks hasks)) rfl
  obtain rfl | ⟨rfl, hseq⟩ := hx
  · exact ⟨.inr (.inr rfl), rfl, rfl, actualAgrees_of hactual rfl (by simp), hdev, hacc, hone⟩
  · have hst : s.st = .opening := by simpa [lifecycleAgrees, hseq] using hlife
    exact ⟨.inl rfl, rfl, rfl, actualAgrees_of hactual rfl fun _ => .inr hst, hdev, hacc, hone⟩

variable (hrsp : s.rsp = none)
include hrsp

/-- R61 to R63: an OK but to a REL. -/
theorem answered_afterOk (hrel : q.op ≠ .rel) (r : Byte) (rest : List BusRsp) : Answered (s.afterOk q r rest) := by
  have hasks := asks_of_inv hinv hreq
  have hhandle := handleAccounted_afterOk hinv hreq hrel r rest
  have hheld := held_afterOk hinv hreq r rest
  obtain ⟨hlife, hpos, -, -, -, hactual, hlatches, hdev, -, hresponses⟩ := hinv
  have hbusy := busy_of_asks hasks
  refine ⟨⟨hbusy, hlife, hrsp, hactual, hlatches, ?_, hhandle, ?_⟩, hpos, hheld, rfl⟩
  · exact deviceAgrees_afterOk hdev (fun reg val hop => asks_wr8 (hop ▸ hasks) hlatches) r rest
  · exact oneUnanswered_txn (unanswered_of_busy hresponses hbusy) rfl

/-- R65: a FAIL. -/
theorem answered_afterFail (hacq : q.op ≠ .acq) (hrel : q.op ≠ .rel) (r : Byte) (rest : List BusRsp) :
    Answered (s.afterFail q r rest) := by
  have hasks := asks_of_inv hinv hreq
  have hheld : s.held = true := held_of_asks hinv hasks hacq
  obtain ⟨hlife, hpos, -, -, -, hactual, hlatches, hdev, hhandle, hresponses⟩ := hinv
  have hbusy := busy_of_asks hasks
  have hevents : (s.afterFail q r rest).events = .txn q ⟨.fail, r⟩ :: s.events := State.afterFail_events ..
  refine ⟨⟨?_, ?_, ?_, ?_, ?_, deviceAgrees_afterFail hdev hlatches q r rest, ?_, ?_⟩, ?_, ?_, ?_⟩
  · simpa using hbusy
  · simpa [lifecycleAgrees] using hlife
  · simpa using hrsp
  · simpa [actualAgrees] using hactual
  · simpa [latchesAgree] using hlatches
  · exact handleAccounted_txn hhandle hevents (by simp) (by simp [isAcquired]) hrel
  · exact oneUnanswered_txn (unanswered_of_busy hresponses hbusy) hevents
  · simpa [positionAgrees] using hpos
  · simpa using hheld
  · simp

end

/-- R22: RESET, SETCH and SETALL run in READY. -/
theorem ready_of_seq {s : State} (hlife : lifecycleAgrees s = true)
    (hseq : s.seq = .resetSeq ∨ s.seq = .chanSeq ∨ s.seq = .allSeq) : s.st = .ready := by
  obtain hseq | hseq | hseq := hseq <;> simpa [lifecycleAgrees, hseq] using hlife

theorem completed_of_ends {s u : State} {e : ErrKind} {r : BitVec 16} (h : Ends s u e r) (hinv : Inv s)
    (hrsp : s.rsp = none) : Completed u := by
  cases h with
  | opened hreq _ hrel _ _ => exact (answered_afterOk hinv hreq hrsp hrel _ _).completed_setReady
  | tuned hreq _ hrel _ hseq => exact (answered_afterOk hinv hreq hrsp hrel _ _).completed_tuned hseq
  | done hreq _ hrel _ hseq =>
    exact (answered_afterOk hinv hreq hrsp hrel _ _).completed (ready_of_seq hinv.lifecycle hseq)
  | notAcquired hreq _ hacq hx =>
    refine completed_notAcquired hinv hreq hacq ?_ _ _
    obtain ⟨rfl, -⟩ | ⟨rfl, -⟩ := hx <;> nofun
  | closed hreq _ hrel _ => exact completed_released hinv hreq hrel (.inl rfl) _ _
  | givenUp hreq _ hrel hseq => exact completed_released hinv hreq hrel (.inr ⟨rfl, hseq⟩) _ _
  | freqFailed hreq _ hacq hrel _ => exact (answered_afterFail hinv hreq hrsp hacq hrel _ _).completed_setReady
  | failed hreq _ hacq hrel hseq =>
    exact (answered_afterFail hinv hreq hrsp hacq hrel _ _).completed
      ((State.afterFail_st ..).trans (ready_of_seq hinv.lifecycle hseq))

theorem inSequence_of_inv {s : State} (hinv : Inv s) (hseq : s.seq ≠ .idle) (hrsp : s.rsp = none) : InSequence s := by
  obtain ⟨hlife, -, -, -, -, hactual, hlatches, hdev, hhandle, hresponses⟩ := hinv
  exact ⟨hseq, hlife, hrsp, hactual, hlatches, hdev, hhandle, unanswered_of_busy hresponses hseq⟩

/-- R61, R244: the request that goes out is the table's, addressed to ADDR. -/
theorem inv_request {s : State} (hinv : Inv s) {op : BusOp} (hmicro : s.micro = some (.bus op)) :
    Inv (s.request op) := by
  obtain ⟨hlife, hpos, hheld, -, hresponse, hactual, hlatches, hdev, hhandle, hresponses⟩ := hinv
  refine ⟨hlife, hpos, hheld, ?_, hresponse, hactual, hlatches, hdev, hhandle, hresponses⟩
  show (s.addr == s.addr && (s.micro == some (.bus op) || _)) = true
  rw [hmicro, beq_self_eq_true, beq_self_eq_true, Bool.true_or, Bool.and_true]

/-- R290: the delay ends in SETFREQ's step 5. -/
theorem inv_delayEnds {s : State} (h : InSequence s) (hseq : s.seq = .freqSeq) (hstep : s.step = 4)
    (hheld : s.held = true) (hreq : s.req = none) (later : List Nat) :
    Inv ({ s with tmr := 0, step := s.step + 1, clk := later }.log .delay) := by
  refine InSequence.inv (u := State.log _ _) { h with } ?_ ?_ ?_
  · simp [positionAgrees, stepInTable, hseq, hstep, SeqId.lastStep]
  · exact heldAgrees_of_busy h.life h.busy (by simp [hseq]) hheld
  · simp [requestAgrees, hreq]

/-- A running sequence keeps the invariant. -/
theorem inv_of_seqStep {s t : State} (h : SeqStep s t) (hinv : Inv s) (hseq : s.seq ≠ .idle) (hrsp : s.rsp = none) :
    Inv t := by
  cases h with
  | waits _ _ => exact hinv
  | issues _ hmicro => exact inv_request hinv hmicro
  | noTime _ _ _ => exact hinv
  | counts _ _ _ _ => exact hinv
  | delayEnds hreq hmicro _ _ =>
    obtain ⟨hfreq, hstep⟩ := micro_delay hmicro
    have hheld : s.held = true := by rw [held_of_busy hinv.lifecycle hinv.held hseq, hfreq]; rfl
    exact inv_delayEnds (inSequence_of_inv hinv hseq hrsp) hfreq hstep hheld hreq _
  | movesOn hreq _ hrel hlast => exact (answered_afterOk hinv hreq hrsp hrel _ _).inv_nextStep hlast
  | openFails hreq _ hacq hrel hseq =>
    have hstep : s.step ≠ 0 := fun hzero => hacq ((asks_acq_iff (asks_of_inv hinv hreq)).2 ⟨hseq, hzero⟩)
    exact (answered_afterFail hinv hreq hrsp hacq hrel _ _).inv_requestRel (by simpa using hseq)
      (by simpa using hstep)
  | closeFails hreq _ hacq hrel hseq =>
    exact (answered_afterFail hinv hreq hrsp hacq hrel _ _).inv_gotoRelease (by simpa using hseq)
  | ends h => exact (completed_of_ends h hinv hrsp).inv_respond _ _ _

/-! ### A command is accepted -/

/-- R207: the latched pair is one the encoder produces. -/
theorem pairProducible_ticks (inv : Bool) (duty : Int) :
    pairProducible (onTick inv duty).toNat (offTick inv duty).toNat = true := by
  have hpair := isPair_enc (normDuty_le duty) inv
  simp only [toNat_onTick, toNat_offTick, pairProducible, Bool.or_eq_true, Bool.and_eq_true, decide_eq_true_eq]
  unfold IsPair at hpair
  tauto

theorem channelBaseLegal_channelBase {ch : Nat} (hch : ch ≤ 15) : channelBaseLegal (channelBase ch) = true := by
  have hnum : (channelBase ch).toNat = 6 + 4 * ch := by
    rw [channelBase_eq]
    exact Nat.mod_eq_of_lt (by omega)
  simp only [channelBaseLegal, hnum, Bool.and_eq_true, decide_eq_true_eq]
  omega

/-- The state in which a word has been taken from the host and recorded. -/
theorem completed_of_accepting {s : State} (hinv : Inv s) (hseq : s.seq = .idle) (hrsp : s.rsp = none)
    (l : List HostAct) (w : Word) : Completed ({ s with host := l }.log (.cmd w)) := by
  obtain ⟨hlife, -, hheld, hreq, -, hactual, -, hdev, hhandle, hresponses⟩ := hinv
  have hst : s.st = .unopened ∨ s.st = .ready ∨ s.st = .closed := by
    simpa [lifecycleAgrees, hseq, or_assoc] using hlife
  refine ⟨hst, ?_, req_of_idle hreq hseq, hactual, hdev, hhandle, ?_⟩
  · show s.held = (s.st == .ready)
    rw [beq_iff_eq.1 hheld]
    obtain hst | hst | hst := hst <;> rw [hst] <;> rfl
  · simpa [List.countP_cons, OneUnanswered, responsesAccounted, isCommand, isResponse, hseq, hrsp] using hresponses

/-- An accepted command's sequence starts at its step 0. -/
theorem inv_of_started {t : State} (h : InSequence t) (hstep : t.step = 0) (hreq : t.req = none)
    (hheld : heldAgrees t = true) : Inv t := by
  refine h.inv ?_ hheld ?_
  · simp [positionAgrees, stepInTable, hstep]
  · simp [requestAgrees, hreq]

theorem inv_of_startedReady {t : State} (h : InSequence t) (hstep : t.step = 0) (hreq : t.req = none)
    (hopen : t.seq ≠ .openSeq) (hheld : t.held = true) : Inv t :=
  inv_of_started h hstep hreq (heldAgrees_of_busy h.life h.busy (fun hseq => absurd hseq hopen) hheld)

/-- R171: the latches hold an accepted frequency and its byte. -/
theorem latched_tunes {hz : Nat} (hlo : 40 ≤ hz) (hhi : hz ≤ 1000) :
    (inRange (BitVec.ofNat 16 hz).toNat && prescaleByte hz == prescaleByte (BitVec.ofNat 16 hz).toNat) = true := by
  have hnum : (BitVec.ofNat 16 hz).toNat = hz := Nat.mod_eq_of_lt (show hz < 65536 by omega)
  rw [hnum, (inRange_iff hz).2 ⟨hlo, hhi⟩, beq_self_eq_true]
  rfl

/-- The `accept:` lines keep the invariant. -/
theorem inv_of_starts {i : Instr} {u t : State} (h : Starts u i t) (hu : Completed u) (hrsp : u.rsp = none) :
    Inv t := by
  obtain ⟨-, hheld, hreq, hactual, hdev, hhandle, hone⟩ := hu
  have hready (hst : u.st = .ready) : u.held = true := by rw [hheld, hst]; rfl
  cases h with
  | opens a hst =>
    have hactual' := actualAgrees_of (t := ({ u with addr := BitVec.ofNat 7 a }.setSt .opening).goto .openSeq 0)
      hactual rfl fun _ => .inl hst
    refine inv_of_started ⟨nofun, rfl, hrsp, hactual', rfl, hdev, hhandle, hone⟩ rfl hreq ?_
    exact beq_iff_eq.2 (hheld.trans (by rw [hst]; rfl))
  | closes hst =>
    exact inv_of_startedReady ⟨nofun, beq_iff_eq.2 hst, hrsp, hactual, rfl, hdev, hhandle, hone⟩ rfl hreq nofun
      (hready hst)
  | resets hst =>
    exact inv_of_startedReady ⟨nofun, beq_iff_eq.2 hst, hrsp, hactual, rfl, hdev, hhandle, hone⟩ rfl hreq nofun
      (hready hst)
  | tunes hz hst hlo hhi =>
    have hactual' := actualAgrees_of
      (t := ((u.latchFreq (BitVec.ofNat 16 hz) (prescaleByte hz)).setSt .reconfiguring).goto .freqSeq 0)
      hactual rfl (by simp)
    exact inv_of_startedReady ⟨nofun, rfl, hrsp, hactual', latched_tunes hlo hhi, hdev, hhandle, hone⟩ rfl hreq nofun
      (hready hst)
  | setsChannel ch inv duty hst hch =>
    have hlatches := Bool.and_eq_true_iff.2 ⟨pairProducible_ticks inv duty, channelBaseLegal_channelBase hch⟩
    exact inv_of_startedReady ⟨nofun, beq_iff_eq.2 hst, hrsp, hactual, hlatches, hdev, hhandle, hone⟩ rfl hreq nofun
      (hready hst)
  | setsAll inv duty hst =>
    have hlatches := Bool.and_eq_true_iff.2 ⟨pairProducible_ticks inv duty, beq_self_eq_true Config.regAllLed⟩
    exact inv_of_startedReady ⟨nofun, beq_iff_eq.2 hst, hrsp, hactual, hlatches, hdev, hhandle, hone⟩ rfl hreq nofun
      (hready hst)

/-! ### Every step -/

theorem inv_of_accepted {i : Instr} {u t : State} (h : Accepted i u t) (hu : Completed u) (hrsp : u.rsp = none) :
    Inv t := by
  cases h with
  | starts h => exact inv_of_starts h hu hrsp
  | answers e => exact hu.inv_respond _ _ _

/-- The response is handed over: it is pending no longer, but counted. -/
theorem inv_deliver {s : State} (hinv : Inv s) {r : Word} (hrsp : s.rsp = some r) : Inv (s.deliver r) := by
  obtain ⟨hlife, hpos, hheld, hreq, hresponse, hactual, hlatches, hdev, hhandle, hresponses⟩ := hinv
  refine ⟨hlife, hpos, hheld, hreq, rfl, hactual, hlatches, hdev, hhandle, ?_⟩
  have hseq : s.seq = .idle := by
    simp only [responseAgrees, hrsp, Bool.and_eq_true, beq_iff_eq] at hresponse
    exact hresponse.1.1
  simpa [responsesAccounted, List.countP_cons, isCommand, isResponse, hseq, hrsp] using hresponses

/-- R310: reset's values meet the invariant, whatever the unspecified latches hold. -/
theorem inv_hardwareReset {s : State} (hinv : Inv s) (hseq : s.seq = .idle) (hheld : s.held = false)
    (hrsp : s.rsp = none) : Inv s.hardwareReset := by
  obtain ⟨-, -, -, hreq, -, -, -, hdev, hhandle, hresponses⟩ := hinv
  refine ⟨rfl, rfl, rfl, ?_, ?_, rfl, rfl, hdev, ?_, ?_⟩
  · simp [requestAgrees, req_of_idle hreq hseq]
  · simp [responseAgrees, hrsp]
  · simpa [handleAccounted, hheld, isAcquired, isReleased] using hhandle
  · simpa [responsesAccounted, hseq, hrsp, isCommand, isResponse] using hresponses

/-- Settles O51: each thing a step can do keeps every part. -/
theorem stepKeepsInvariant : Obligations.StepKeepsInvariant := by
  intro s t hinv hstep
  cases machineStep_of_step hstep with
  | reads _ => exact hinv
  | delivers hrsp => exact inv_deliver hinv hrsp
  | resets hrsp _ hseq hheld => exact inv_hardwareReset (s := { s with host := _ }) hinv hseq hheld hrsp
  | rejects hrsp _ hseq => exact (completed_of_accepting hinv hseq hrsp _ _).inv_respond _ _ _
  | accepts hrsp _ hseq _ h => exact inv_of_accepted h (completed_of_accepting hinv hseq hrsp _ _) hrsp
  | rests l _ _ => exact hinv
  | sequences l hrsp hseq h => exact inv_of_seqStep (s := { s with host := l }) h hinv hseq hrsp

end Sys2Proof.Safety
end

section
/-! From a state that meets the invariant the machine stops only where the spec refuses a run (R110, R312), and a
running sequence moves forward (R246). -/

namespace Sys2Proof.Safety

open Sys2Proof.Machine

/-! ### The sequencer always goes on -/

/-- An answer whose kind R110 does not allow is at the head of the provider's list. -/
def ContractBroken (s : State) : Prop :=
  ∃ q a rest, s.req = some q ∧ s.bus = a :: rest ∧ statusAllowed q.op a.status = false

theorem exists_stepDone {u : State} (hbusy : u.seq ≠ .idle)
    (hclose : u.seq = .closeSeq → u.step.toNat ≠ u.seq.lastStep) : ∃ t, stepDone u = .next t := by
  unfold stepDone
  split
  next hlast =>
    cases hseq : u.seq <;> simp only [finish, hseq]
    case idle => exact absurd hseq hbusy
    case closeSeq => exact absurd hlast (hclose hseq)
    all_goals exact ⟨_, rfl⟩
  next => exact ⟨_, rfl⟩

theorem exists_failed {u : State} (hbusy : u.seq ≠ .idle) : ∃ t, failed u = .next t := by
  cases hseq : u.seq <;> simp only [failed, hseq]
  case idle => exact absurd hseq hbusy
  all_goals exact ⟨_, rfl⟩

/-- R61 to R65: an allowed answer to what the block asks has an effect. -/
theorem exists_answerEffect {s : State} {q : BusReq} {a : BusRsp} (hasks : Asks s q.op)
    (hallowed : statusAllowed q.op a.status = true) (rest : List BusRsp) :
    ∃ t, answerEffect q a (s.answered q a rest) = .next t := by
  have hbusy := busy_of_asks hasks
  obtain ⟨x, r⟩ := a
  obtain rfl | ⟨hacq, rfl | rfl⟩ | ⟨hacq, hrel, rfl⟩ := statusAllowed_cases hallowed
  · by_cases hrel : q.op = .rel
    · simp only [answerEffect, hrel]
      obtain ⟨hseq, -⟩ | hseq := asks_rel (hrel ▸ hasks)
      · exact ⟨_, relAnswered_closeSeq hseq⟩
      · exact ⟨_, relAnswered_openSeq hseq⟩
    · rw [answerEffect_ok hrel]
      refine exists_stepDone hbusy fun hseq => ?_
      have hne := step_ne_five_of_closeSeq hasks hrel hseq
      rwa [hseq]
  · simp only [answerEffect, hacq, acqAnswered]
    exact ⟨_, rfl⟩
  · simp only [answerEffect, hacq, acqAnswered]
    exact ⟨_, rfl⟩
  · rw [answerEffect_fail hacq hrel]
    exact exists_failed (by simpa using hbusy)

theorem exists_countDown (s : State) : ∃ t, countDown s = .next t := by
  unfold countDown
  split
  · exact ⟨_, rfl⟩
  · split <;> exact ⟨_, rfl⟩

theorem exists_issue {s : State} (hbusy : s.seq ≠ .idle) (hpos : positionAgrees s = true) :
    ∃ t, issue s = .next t := by
  have hentry := micro_isSome hbusy (of_decide_eq_true hpos)
  unfold issue
  split
  next h => exact absurd h hentry
  next => exact ⟨_, rfl⟩
  next => exact exists_countDown s

theorem sequencerStep_total {s : State} (hinv : Inv s) :
    (∃ t, sequencerStep s = .next t) ∨ (sequencerStep s = .refused .providerContract ∧ ContractBroken s) := by
  unfold sequencerStep
  split
  next => exact .inl ⟨_, rfl⟩
  next hbusy =>
    split
    next q hreq =>
      unfold awaitAnswer
      split
      next => exact .inl ⟨_, rfl⟩
      next a rest hbus =>
        split
        next hallowed => exact .inl (exists_answerEffect (asks_of_inv hinv hreq) hallowed rest)
        next hbroken => exact .inr ⟨rfl, q, a, rest, hreq, hbus, Bool.eq_false_iff.2 hbroken⟩
    next => exact .inl (exists_issue hbusy hinv.position)

/-! ### The machine always goes on -/

theorem exists_acceptWord {s : State} (hst : s.st = .unopened ∨ s.st = .ready ∨ s.st = .closed) (w : Word) :
    ∃ t, acceptWord w s = .next t := by
  unfold acceptWord
  split
  next => exact ⟨_, rfl⟩
  next i _ =>
    obtain ⟨a, hexec, -⟩ := exists_exec_eq_checked i (s.log (.cmd w))
    rw [hexec, checked]
    obtain hst | hst | hst := hst <;> cases opcodeOf i == 1 <;>
      simp only [State.log_st, hst, lifecycleVerdict] <;> exact ⟨_, rfl⟩

/-- What a step answers from a state that meets the invariant. -/
theorem step_total {s : State} (hinv : Inv s) :
    (∃ t, step s = .next t) ∨
      (step s = .refused .resetOutsideIdle ∧ (∃ later, s.host = .rst :: later) ∧ (s.seq ≠ .idle ∨ s.held = true)) ∨
      (step s = .refused .providerContract ∧ ContractBroken s) := by
  have hsequencer {u : State} (hu : Inv u) (hbroken : ContractBroken u → ContractBroken s)
      (h : step s = sequencerStep u) :
      (∃ t, step s = .next t) ∨ (step s = .refused .providerContract ∧ ContractBroken s) := by
    rw [h]
    exact (sequencerStep_total hu).imp_right (And.imp_right hbroken)
  cases hrsp : s.rsp with
  | some r =>
    by_cases hread : ∃ n later, s.host = .readSR n :: later
    · obtain ⟨n, later, hread⟩ := hread
      exact .inl ⟨_, step_readSR hread⟩
    · exact .inl ⟨_, step_pending hrsp fun n later h => hread ⟨n, later, h⟩⟩
  | none =>
    match hhost : s.host with
    | [] => exact (hsequencer hinv id (by simp only [step, machineStep, hhost, hrsp])).imp_right .inr
    | .readSR n :: rest => exact .inl ⟨_, step_readSR hhost⟩
    | .pass :: rest => exact (hsequencer (u := { s with host := rest }) hinv id
      (by simp only [step, machineStep, hhost, hrsp, hostStep])).imp_right .inr
    | .rst :: rest =>
      rw [step_rst hrsp hhost]
      by_cases hidle : s.seq = .idle ∧ s.held = false
      · exact .inl ⟨_, assertReset_of_idle hidle.1 hidle.2⟩
      · rw [not_and_or, Bool.not_eq_false] at hidle
        exact .inr (.inl ⟨assertReset_refused hidle, ⟨rest, rfl⟩, hidle⟩)
    | .cmd w :: rest =>
      by_cases hseq : s.seq = .idle
      · rw [step_accepts_word hseq hrsp hhost]
        exact .inl (exists_acceptWord (s := { s with host := rest })
          (completed_of_accepting hinv hseq hrsp rest w).st w)
      · exact (hsequencer hinv id (by simp only [step, machineStep, hhost, hrsp, hostStep, if_neg hseq])).imp_right .inr

/-- Settles O53: a step that has no next state is refused in one of the two ways. -/
theorem stopsOnlyWhereTheSpecRefuses : Obligations.StopsOnlyWhereTheSpecRefuses := by
  intro s hinv
  obtain ⟨t, h⟩ | ⟨h, hhost, hbusy⟩ | ⟨h, hbroken⟩ := step_total hinv <;> rw [h]
  · exact ⟨nofun, nofun⟩
  · refine ⟨nofun, fun x hx => ?_⟩
    cases hx
    exact .inl ⟨rfl, hhost, hbusy⟩
  · refine ⟨nofun, fun x hx => ?_⟩
    cases hx
    exact .inr ⟨rfl, hbroken⟩

/-! ### Sequences end -/

theorem exists_step_of_answerReady {s : State} (hinv : Inv s) (hrun : Running s) (hready : answerReady s = true) :
    ∃ t, step s = .next t := by
  rw [step_running hrun]
  refine (sequencerStep_total hinv).resolve_right ?_
  rintro ⟨-, q, a, rest, hreq, hbus, hbroken⟩
  simp [answerReady, hreq, hbus, hbroken] at hready

/-- What `distance` counts of the current transaction. -/
def phase (req : Option BusReq) : Nat :=
  match req with
  | none => 3
  | some q => if q.op = .rel then 1 else 2

/-- What `distance` counts of SETFREQ's delay. -/
def delayToCome (s : State) : Nat :=
  if s.seq = .freqSeq then
    (if s.step.toNat < 4 then Config.settleCycles else if s.step.toNat = 4 then s.tmr else 0)
  else 0

theorem distance_of_busy {s : State} (hseq : s.seq ≠ .idle) :
    distance s = 4 * (6 - s.step.toNat) + phase s.req + delayToCome s := if_neg hseq

theorem distance_of_idle {s : State} (hseq : s.seq = .idle) : distance s = 0 := if_pos hseq

/-- A table has at most six steps. -/
theorem step_le_five {s : State} (hpos : positionAgrees s = true) : s.step.toNat ≤ 5 :=
  (of_decide_eq_true hpos : s.step.toNat ≤ s.seq.lastStep).trans (by cases s.seq <;> decide)

theorem phase_of_ne_rel {q : BusReq} (hrel : q.op ≠ .rel) : phase (some q) = 2 := if_neg hrel

theorem delayToCome_of_ne_freq {s : State} (hseq : s.seq ≠ .freqSeq) : delayToCome s = 0 := if_neg hseq

/-- The next step has no longer a delay to come: entering step 4 loads TMR with what was to come before. -/
theorem delayToCome_nextStep {u : State} (hsucc : (u.step + 1).toNat = u.step.toNat + 1) :
    delayToCome u.nextStep ≤ delayToCome u := by
  by_cases hseq : u.seq = .freqSeq
  · by_cases hthree : u.step = 3
    · simp [delayToCome, State.nextStep, hseq, hthree]
    · have hne : u.step.toNat ≠ 3 := fun h => hthree (BitVec.eq_of_toNat_eq h)
      simp only [delayToCome, State.nextStep_seq, State.nextStep_step, hseq, if_true, hsucc]
      split
      · rw [if_pos (by omega)]
      · rw [if_neg (by omega)]
        exact Nat.zero_le _
  · exact (delayToCome_of_ne_freq (s := u.nextStep) hseq).trans_le (Nat.zero_le _)

section
variable {s : State} (hseq : s.seq ≠ .idle)
include hseq

theorem distance_request_lt (hreq : s.req = none) (op : BusOp) : distance (s.request op) < distance s := by
  have hphase : phase (s.request op).req ≤ 2 := by
    simp only [State.request_req, phase]
    split <;> omega
  have hnone : phase s.req = 3 := by rw [hreq]; rfl
  have hdelay : delayToCome (s.request op) = delayToCome s := rfl
  rw [distance_of_busy hseq, distance_of_busy (s := s.request op) hseq, State.request_step]
  omega

/-- In the delay only TMR counts. -/
theorem distance_settling (hfreq : s.seq = .freqSeq) (hstep : s.step = 4) (hreq : s.req = none) :
    distance s = 11 + s.tmr := by
  have hdelay : delayToCome s = s.tmr := by simp [delayToCome, hfreq, hstep]
  rw [distance_of_busy hseq, hdelay, hstep, hreq]
  rfl

theorem distance_nextStep_lt (hpos : positionAgrees s = true) {q : BusReq} (hreq : s.req = some q) (hrel : q.op ≠ .rel)
    (hlast : s.step.toNat ≠ s.seq.lastStep) (r : Byte) (rest : List BusRsp) :
    distance (s.afterOk q r rest).nextStep < distance s := by
  obtain ⟨hsucc, -⟩ := toNat_step_succ hpos hlast
  have hfive := step_le_five hpos
  have hdelay : delayToCome (s.afterOk q r rest).nextStep ≤ delayToCome s := delayToCome_nextStep hsucc
  have hphase : phase (s.afterOk q r rest).nextStep.req = 3 := rfl
  have hstep : (s.afterOk q r rest).nextStep.step.toNat = s.step.toNat + 1 := hsucc
  rw [distance_of_busy hseq, distance_of_busy (s := (s.afterOk q r rest).nextStep) hseq, hphase, hstep, hreq,
    phase_of_ne_rel hrel]
  omega

end

/-- R246: what moves a running sequence forward. -/
theorem distance_lt {s t : State} (h : SeqStep s t) (hinv : Inv s) (hseq : s.seq ≠ .idle)
    (hready : answerReady s = true) (htime : timePasses s = true) : distance t < distance s := by
  cases h with
  | waits hreq hbus => simp [answerReady, hreq, hbus] at hready
  | noTime _ hmicro hclk => simp [timePasses, hmicro, hclk] at htime
  | issues hreq _ => exact distance_request_lt hseq hreq _
  | @counts c later hreq hmicro hclk hc =>
    obtain ⟨hfreq, hstep⟩ := micro_delay hmicro
    have hpos : 0 < c := by
      have htmr : s.tmr ≠ 0 := by omega
      simpa [timePasses, hmicro, hclk, htmr] using htime
    rw [distance_settling hseq hfreq hstep hreq,
      distance_settling (s := { s with tmr := s.tmr - c, clk := later }) hseq hfreq hstep hreq]
    simp only
    omega
  | @delayEnds c later hreq hmicro hclk hc =>
    obtain ⟨hfreq, hstep⟩ := micro_delay hmicro
    have hended : distance ({ s with tmr := 0, step := s.step + 1, clk := later }.log .delay) = 7 := by
      simp [distance, hfreq, hstep, hreq]
    rw [distance_settling hseq hfreq hstep hreq, hended]
    omega
  | movesOn hreq _ hrel hlast => exact distance_nextStep_lt hseq hinv.position hreq hrel hlast _ _
  | @openFails q r rest hreq hbus hacq hrel hq =>
    have hq' : ((s.afterFail q r rest).request .rel).seq = .openSeq := (State.afterFail_seq ..).trans hq
    have hphase : phase ((s.afterFail q r rest).request .rel).req = 1 := rfl
    rw [distance_of_busy hseq, distance_of_busy (by rw [hq']; nofun), hphase, hreq, phase_of_ne_rel hrel,
      delayToCome_of_ne_freq (s := State.request _ _) (by rw [hq']; nofun), State.request_step, State.afterFail_step]
    omega
  | @closeFails q r rest hreq hbus hacq hrel hq =>
    have hfive := step_le_five hinv.position
    have hlast := step_ne_five_of_closeSeq (asks_of_inv hinv hreq) hrel hq
    have hskipped : distance ((s.afterFail q r rest).goto .closeSeq 5) = 7 := by
      simp [distance]
    rw [distance_of_busy hseq, hskipped, hreq, phase_of_ne_rel hrel]
    omega
  | ends h =>
    have hfive := step_le_five hinv.position
    rw [distance_of_busy hseq, distance_of_idle (State.respond_seq ..)]
    omega

/-- Settles O32: the step has a next state, and whatever the sequencer does in it shortens the distance. -/
theorem sequencesMoveForward : Obligations.SequencesMoveForward := by
  intro s hinv hrun hready htime
  obtain ⟨t, hstep⟩ := exists_step_of_answerReady hinv hrun hready
  exact ⟨t, hstep, distance_lt (seqStep_of_step hrun hstep) hinv hrun.1 hready htime⟩

end Sys2Proof.Safety
end

section
/-! The lifecycle's transitions (R247), a closed block (R150), and the requests the block makes (R61 to R64, R71). -/

namespace Sys2Proof.Safety

open Sys2Proof.Machine

/-! ### Transitions of ST -/

/-- R247: how a running sequence changes ST. -/
def SeqTransition (s t : State) : Prop :=
  (s.st = .opening ∧ t.st = .unopened ∧ ∃ q a rest, s.req = some q ∧ s.bus = a :: rest ∧
      ((q.op = .acq ∧ (a.status = .notFound ∨ a.status = .inUse)) ∨ q.op = .rel)) ∨
    (s.st = .opening ∧ t.st = .ready ∧ s.step = 5 ∧
      ∃ q a rest, s.req = some q ∧ s.bus = a :: rest ∧ a.status = .ok) ∨
    (s.st = .reconfiguring ∧ t.st = .ready ∧ ∃ q a rest, s.req = some q ∧ s.bus = a :: rest ∧
      ((s.step = 5 ∧ a.status = .ok) ∨ a.status = .fail)) ∨
    (s.st = .ready ∧ t.st = .closed ∧ s.seq = .closeSeq ∧ s.step = 5 ∧
      ∃ q a rest, s.req = some q ∧ q.op = .rel ∧ s.bus = a :: rest)

theorem opening_of_openSeq {s : State} (hlife : lifecycleAgrees s = true) (hseq : s.seq = .openSeq) :
    s.st = .opening := by
  simpa [lifecycleAgrees, hseq] using hlife

theorem reconfiguring_of_freqSeq {s : State} (hlife : lifecycleAgrees s = true) (hseq : s.seq = .freqSeq) :
    s.st = .reconfiguring := by
  simpa [lifecycleAgrees, hseq] using hlife

theorem ready_of_closeSeq {s : State} (hlife : lifecycleAgrees s = true) (hseq : s.seq = .closeSeq) :
    s.st = .ready := by
  simpa [lifecycleAgrees, hseq] using hlife

theorem seqTransition_of_ends {s u : State} {e : ErrKind} {r : BitVec 16} (h : Ends s u e r) (hinv : Inv s)
    (hst : u.st ≠ s.st) : SeqTransition s u := by
  have hlife := hinv.lifecycle
  have hfive (hlast : s.step.toNat = s.seq.lastStep) (hseq : s.seq.lastStep = 5) : s.step = 5 :=
    BitVec.eq_of_toNat_eq (hlast.trans hseq)
  cases h with
  | opened hreq hbus _ hlast hseq =>
    exact .inr (.inl ⟨opening_of_openSeq hlife hseq, rfl, hfive hlast (by rw [hseq]; rfl), _, _, _, hreq, hbus, rfl⟩)
  | tuned hreq hbus _ hlast hseq =>
    exact .inr (.inr (.inl ⟨reconfiguring_of_freqSeq hlife hseq, rfl, _, _, _, hreq, hbus,
      .inl ⟨hfive hlast (by rw [hseq]; rfl), rfl⟩⟩))
  | done _ _ _ _ _ => exact absurd rfl hst
  | notAcquired hreq hbus hacq hx =>
    obtain ⟨hseq, -⟩ := (asks_acq_iff (asks_of_inv hinv hreq)).1 hacq
    exact .inl ⟨opening_of_openSeq hlife hseq, rfl, _, _, _, hreq, hbus, .inl ⟨hacq, hx.imp And.left And.left⟩⟩
  | closed hreq hbus hrel hseq =>
    have hstep : s.step = 5 := by
      obtain ⟨-, hstep⟩ | hopen := asks_rel (hrel ▸ asks_of_inv hinv hreq)
      · exact hstep
      · rw [hseq] at hopen
        cases hopen
    exact .inr (.inr (.inr ⟨ready_of_closeSeq hlife hseq, rfl, hseq, hstep, _, _, _, hreq, hrel, hbus⟩))
  | givenUp hreq hbus hrel hseq =>
    exact .inl ⟨opening_of_openSeq hlife hseq, rfl, _, _, _, hreq, hbus, .inr hrel⟩
  | freqFailed hreq hbus _ _ hseq =>
    exact .inr (.inr (.inl ⟨reconfiguring_of_freqSeq hlife hseq, rfl, _, _, _, hreq, hbus, .inr rfl⟩))
  | failed _ _ _ _ _ => exact absurd (State.afterFail_st ..) hst

theorem seqTransition_of_seqStep {s t : State} (h : SeqStep s t) (hinv : Inv s) (hst : t.st ≠ s.st) :
    SeqTransition s t := by
  cases h with
  | waits _ _ | issues _ _ | noTime _ _ _ | counts _ _ _ _ | delayEnds _ _ _ _ | movesOn _ _ _ _ => exact absurd rfl hst
  | openFails _ _ _ _ _ => exact absurd (State.afterFail_st ..) hst
  | closeFails _ _ _ _ _ => exact absurd (State.afterFail_st ..) hst
  | ends h =>
    have hends := seqTransition_of_ends h hinv hst
    exact hends

/-- Settles O54: only reset, OPEN's and SETFREQ's acceptance and the sequencer change ST. -/
theorem lifecycleTransitions : Obligations.LifecycleTransitions := by
  intro s t hinv hstep hst
  cases machineStep_of_step hstep with
  | reads _ => exact absurd rfl hst
  | delivers _ => exact absurd rfl hst
  | resets _ hhost _ _ => exact .inl ⟨rfl, _, hhost⟩
  | rejects _ _ _ => exact absurd rfl hst
  | accepts _ hhost _ hdec h =>
    cases h with
    | starts h =>
      cases h with
      | opens a hun => exact .inr (.inl ⟨hun, rfl, _, _, a, hhost, hdec⟩)
      | tunes hz hready hlo hhi =>
        exact .inr (.inr (.inr (.inr (.inl ⟨hready, rfl, _, _, hz, hhost, hdec, hlo, hhi⟩))))
      | closes _ | resets _ | setsChannel _ _ _ _ _ | setsAll _ _ _ => exact absurd rfl hst
    | answers e => exact absurd rfl hst
  | rests _ _ _ => exact absurd rfl hst
  | sequences l _ _ h =>
    obtain hfail | hopened | hfreq | hclosed := seqTransition_of_seqStep (s := { s with host := l }) h hinv hst
    · exact .inr (.inr (.inl hfail))
    · exact .inr (.inr (.inr (.inl hopened)))
    · exact .inr (.inr (.inr (.inr (.inr (.inl hfreq)))))
    · exact .inr (.inr (.inr (.inr (.inr (.inr hclosed)))))

/-! ### A closed block -/

theorem idle_of_closed {s : State} (hlife : lifecycleAgrees s = true) (hst : s.st = .closed) : s.seq = .idle := by
  cases hseq : s.seq <;> simp [lifecycleAgrees, hseq, hst] at hlife
  rfl

theorem not_held_of_closed {s : State} (hheld : heldAgrees s = true) (hst : s.st = .closed) : s.held = false := by
  rw [beq_iff_eq.1 hheld, hst]
  rfl

/-- Settles O55: a closed block is idle and starts no command. -/
theorem closedIsFinal : Obligations.ClosedIsFinal := by
  intro s t hinv hst hstep
  have hseq := idle_of_closed hinv.lifecycle hst
  have hreq := req_of_idle hinv.request hseq
  have hheld := not_held_of_closed hinv.held hst
  cases machineStep_of_step hstep with
  | reads _ => exact ⟨hreq, hheld, .inl hst⟩
  | delivers _ => exact ⟨hreq, hheld, .inl hst⟩
  | resets _ hhost _ _ => exact ⟨hreq, rfl, .inr ⟨rfl, _, hhost⟩⟩
  | rejects _ _ _ => exact ⟨hreq, hheld, .inl hst⟩
  | accepts _ _ _ _ h =>
    cases h with
    | starts h =>
      have hopen : s.st = .unopened ∨ s.st = .ready := by
        cases h with
        | opens _ hun => exact .inl hun
        | closes hready | resets hready | tunes _ hready _ _ | setsChannel _ _ _ hready _ | setsAll _ _ hready =>
          exact .inr hready
      simp [hst] at hopen
    | answers e => exact ⟨hreq, hheld, .inl hst⟩
  | rests _ _ _ => exact ⟨hreq, hheld, .inl hst⟩
  | sequences _ _ hbusy _ => exact absurd hseq hbusy

/-! ### Requests -/

theorem req_of_ends {s u : State} {e : ErrKind} {r : BitVec 16} (h : Ends s u e r) : u.req = none := by
  cases h with
  | opened _ _ _ _ _ | tuned _ _ _ _ _ | done _ _ _ _ _ | notAcquired _ _ _ _ | closed _ _ _ _ | givenUp _ _ _ _ => rfl
  | freqFailed _ _ _ _ _ => exact State.afterFail_req ..
  | failed _ _ _ _ _ => exact State.afterFail_req ..

/-- A request that appears is one the block asks for, addressed to ADDR. -/
theorem req_of_seqStep {s t : State} (h : SeqStep s t) (hinv : Inv s) :
    t.req = s.req ∨ t.req = none ∨ ∃ op, Asks s op ∧ t.req = some ⟨s.addr, op⟩ := by
  cases h with
  | waits _ _ | noTime _ _ _ | counts _ _ _ _ | delayEnds _ _ _ _ => exact .inl rfl
  | issues _ hmicro => exact .inr (.inr ⟨_, .inl hmicro, rfl⟩)
  | movesOn _ _ _ _ => exact .inr (.inl rfl)
  | openFails hreq _ hacq _ hseq =>
    have hstep : s.step ≠ 0 := fun hzero => hacq ((asks_acq_iff (asks_of_inv hinv hreq)).2 ⟨hseq, hzero⟩)
    exact .inr (.inr ⟨.rel, .inr ⟨hseq, hstep, rfl⟩, by simp⟩)
  | closeFails _ _ _ _ _ => exact .inr (.inl (State.afterFail_req ..))
  | ends h =>
    have hnone := req_of_ends h
    exact .inr (.inl hnone)

/-- What the block asks for, and when. -/
theorem asks_legal {s : State} (hinv : Inv s) {op : BusOp} (h : Asks s op) :
    (op = .acq → s.held = false ∧ s.seq = .openSeq) ∧ (op ≠ .acq → s.held = true) ∧
      (op = .rel → s.seq = .closeSeq ∨ s.seq = .openSeq) ∧
      (∀ reg, op = .rd8 reg → reg = 0x00 ∧ s.seq = .freqSeq) ∧
      ∀ reg val, op = .wr8 reg val →
        reg = 0x00 ∨ (0x06 ≤ reg.toNat ∧ reg.toNat ≤ 0x45) ∨ (0xFA ≤ reg.toNat ∧ reg.toNat ≤ 0xFE) := by
  refine ⟨fun hop => ?_, held_of_asks hinv h, fun hop => ?_, fun reg hop => ?_, fun reg val hop => ?_⟩
  · exact ⟨held_of_asks_acq hinv (hop ▸ h), ((asks_acq_iff h).1 hop).1⟩
  · exact (asks_rel (hop ▸ h)).imp_left And.left
  · exact (asks_rd8 (hop ▸ h)).symm
  · exact (writable_iff reg).1 (asks_wr8 (hop ▸ h) hinv.latches)

/-- Settles O56: only the sequencer makes requests, and only what the block asks for. -/
theorem requestsTheBlockMakes : Obligations.RequestsTheBlockMakes := by
  intro s t q hinv hstep hreq hnew
  cases machineStep_of_step hstep with
  | reads _ => exact absurd hreq hnew
  | delivers _ => exact absurd hreq hnew
  | resets _ _ _ _ => exact absurd hreq hnew
  | rejects _ _ _ => exact absurd hreq hnew
  | accepts _ _ _ _ h => exact absurd (h.keeps.req.symm.trans hreq) hnew
  | rests _ _ _ => exact absurd hreq hnew
  | sequences l _ _ h =>
    obtain hsame | hnone | ⟨op, hasks, hop⟩ := req_of_seqStep (s := { s with host := l }) h hinv
    · exact absurd (hsame.symm.trans hreq) hnew
    · simp [hnone] at hreq
    · cases hop.symm.trans hreq
      exact ⟨rfl, asks_legal hinv hasks⟩

end Sys2Proof.Safety
end

section
/-! The byte read from MODE1 decides data only (R81, R172): what two alike states do is followed through the parts of a
step, and each answers alike states or stops alike. -/

namespace Sys2Proof.Machine

/-! ### The tables -/

/-- Only the data of SETFREQ's MODE1 writes is computed from the byte read. -/
theorem freqStep_old (old x pre : Byte) (k : Nat) :
    freqStep x pre k = freqStep old pre k ∨
      ∃ v v', freqStep old pre k = some (.bus (.wr8 0x00 v)) ∧ freqStep x pre k = some (.bus (.wr8 0x00 v')) := by
  match k with
  | 0 | 2 | 4 => exact .inl rfl
  | 1 | 3 | 5 => exact .inr ⟨_, _, rfl, rfl⟩
  | _ + 6 => exact .inl rfl

theorem micro_withOld (s : State) (x : Byte) :
    ({ s with old := x } : State).micro = s.micro ∨
      ∃ v v' : Byte, s.micro = some (.bus (.wr8 0x00 v)) ∧
        ({ s with old := x } : State).micro = some (.bus (.wr8 0x00 v')) := by
  cases hseq : s.seq <;> simp only [State.micro, hseq]
  case freqSeq => exact freqStep_old s.old x s.pre s.step.toNat
  all_goals exact .inl trivial

end Sys2Proof.Machine

namespace Sys2Proof.Safety

open Sys2Proof.Machine

/-! ### Alike states -/

/-- The second state of two alike ones, written as the first with five fields replaced. -/
theorem AlikeButForReadBytes.exists {s s' : State} (h : AlikeButForReadBytes s s') :
    ∃ old req bus events dev, s' = { s with old := old, req := req, bus := bus, events := events, dev := dev } ∧
      reqAlike s.req req ∧ List.Forall₂ eventAlike s.events events ∧
      s.bus.map BusRsp.status = bus.map BusRsp.status ∧
      ∀ k : Nat, k % 256 ≠ 0 → Memory.read dev k = Memory.read s.dev k :=
  ⟨s'.old, s'.req, s'.bus, s'.events, s'.dev, h⟩

/-- Both outcomes are alike next states, or the same stop. -/
inductive ResultAlike : Result → Result → Prop
  | next {t t' : State} (h : AlikeButForReadBytes t t') : ResultAlike (.next t) (.next t')
  | fault (f : Fault) : ResultAlike (.fault f) (.fault f)
  | refused (x : Refusal) : ResultAlike (.refused x) (.refused x)

theorem read_write_alike {m m' : List Host.Cell} (h : ∀ k : Nat, k % 256 ≠ 0 → Memory.read m' k = Memory.read m k)
    (a : Nat) (v : Byte) (k : Nat) (hk : k % 256 ≠ 0) :
    Memory.read (Memory.write m' a v) k = Memory.read (Memory.write m a v) k := by
  by_cases hka : k = a
  · rw [hka, Memory.read_write_self, Memory.read_write_self]
  · rw [Memory.read_write_other _ _ hka, Memory.read_write_other _ _ hka, h k hk]

/-- MODE1 of any device is outside what must agree. -/
theorem read_write_mode1 (m : List Host.Cell) (a : BusAddr) (v : Byte) {k : Nat} (hk : k % 256 ≠ 0) :
    Memory.read (Memory.write m (deviceKey a Config.regMode1) v) k = Memory.read m k := by
  refine Memory.read_write_other _ _ fun heq => hk ?_
  have hzero : Config.regMode1.toNat = 0 := rfl
  rw [heq, deviceKey]
  omega

section
variable {s s' : State} (h : AlikeButForReadBytes s s')
include h

theorem devForgetAll_alike (a : BusAddr) (l : List Byte) :
    AlikeButForReadBytes (s.devForgetAll a l) (s'.devForgetAll a l) := by
  induction l generalizing s s' with
  | nil => exact h
  | cons reg l ih =>
    obtain ⟨old, req, bus, events, dev, rfl, hreq, hevents, hbus, hdev⟩ := h.exists
    exact ih ⟨rfl, hreq, hevents, hbus, read_write_alike hdev _ _⟩

theorem finish_alike : ResultAlike (finish s) (finish s') := by
  obtain ⟨old, req, bus, events, dev, rfl, hreq, hevents, hbus, hdev⟩ := h.exists
  cases hseq : s.seq <;> simp only [finish, hseq]
  case idle => exact .fault _
  case closeSeq => exact .fault _
  all_goals exact .next ⟨rfl, hreq, hevents, hbus, hdev⟩

theorem stepDone_alike : ResultAlike (stepDone s) (stepDone s') := by
  have hfinish := finish_alike h
  obtain ⟨old, req, bus, events, dev, rfl, hreq, hevents, hbus, hdev⟩ := h.exists
  simp only [stepDone]
  split
  · exact hfinish
  · exact .next ⟨rfl, hreq, hevents, hbus, hdev⟩

theorem request_alike {op op' : BusOp} (hop : opAlike op op') :
    AlikeButForReadBytes (s.request op) (s'.request op') := by
  obtain ⟨old, req, bus, events, dev, rfl, hreq, hevents, hbus, hdev⟩ := h.exists
  exact ⟨rfl, .inr ⟨s.addr, op, op', rfl, rfl, hop⟩, hevents, hbus, hdev⟩

theorem failed_alike : ResultAlike (failed s) (failed s') := by
  have hrelease := ResultAlike.next (request_alike h (op := .rel) (.inl rfl))
  obtain ⟨old, req, bus, events, dev, rfl, hreq, hevents, hbus, hdev⟩ := h.exists
  cases hseq : s.seq <;> simp only [failed, hseq]
  case idle => exact .fault _
  case openSeq => simpa only [hseq] using hrelease
  all_goals exact .next ⟨rfl, hreq, hevents, hbus, hdev⟩

theorem relAnswered_alike : ResultAlike (relAnswered s) (relAnswered s') := by
  obtain ⟨old, req, bus, events, dev, rfl, hreq, hevents, hbus, hdev⟩ := h.exists
  cases hseq : s.seq <;> simp only [relAnswered, hseq]
  case openSeq => exact .next ⟨rfl, hreq, hevents, hbus, hdev⟩
  case closeSeq => exact .next ⟨rfl, hreq, hevents, hbus, hdev⟩
  all_goals exact .fault _

theorem acqAnswered_alike (x : BusStatus) : ResultAlike (acqAnswered x s) (acqAnswered x s') := by
  obtain ⟨old, req, bus, events, dev, rfl, hreq, hevents, hbus, hdev⟩ := h.exists
  cases x with
  | ok => exact stepDone_alike ⟨rfl, hreq, hevents, hbus, hdev⟩
  | notFound => exact .next ⟨rfl, hreq, hevents, hbus, hdev⟩
  | inUse => exact .next ⟨rfl, hreq, hevents, hbus, hdev⟩
  | fail => exact .refused _

theorem ioFail_alike (a : BusAddr) : ResultAlike (ioFail a s) (ioFail a s') := by
  have hgroup : s'.group = s.group := by
    rw [h.1]
    rfl
  rw [ioFail, ioFail, hgroup]
  exact failed_alike (devForgetAll_alike h a s.group)

/-- The bytes answered to a read may differ, and so may the data of a MODE1 write. -/
theorem answerEffect_alike {addr7 : BusAddr} {op op' : BusOp} (hop : opAlike op op') {a a' : BusRsp}
    (hstatus : a.status = a'.status) :
    ResultAlike (answerEffect ⟨addr7, op⟩ a s) (answerEffect ⟨addr7, op'⟩ a' s') := by
  have hfail := ioFail_alike h addr7
  have hacq := acqAnswered_alike h a.status
  have hrel := relAnswered_alike h
  obtain ⟨old, req, bus, events, dev, rfl, hreq, hevents, hbus, hdev⟩ := h.exists
  obtain rfl | ⟨v, v', rfl, rfl⟩ := hop
  · cases op with
    | acq => simpa only [answerEffect, ← hstatus] using hacq
    | rel => exact hrel
    | wr8 reg val =>
      simp only [answerEffect, ← hstatus]
      split
      · exact stepDone_alike ⟨rfl, hreq, hevents, hbus, read_write_alike hdev _ _⟩
      · exact hfail
    | rd8 reg =>
      simp only [answerEffect, ← hstatus]
      split
      · exact stepDone_alike ⟨rfl, hreq, hevents, hbus, hdev⟩
      · exact hfail
  · simp only [answerEffect, ← hstatus]
    split
    · refine stepDone_alike ⟨rfl, hreq, hevents, hbus, fun k hk => ?_⟩
      exact (read_write_mode1 _ _ _ hk).trans ((hdev k hk).trans (read_write_mode1 _ _ _ hk).symm)
    · exact hfail

end

theorem statusAllowed_alike {op op' : BusOp} (hop : opAlike op op') (x : BusStatus) :
    statusAllowed op x = statusAllowed op' x := by
  obtain rfl | ⟨v, v', rfl, rfl⟩ := hop <;> rfl

/-- Outstanding requests that are alike have one address, and operations alike. -/
theorem reqAlike_some {q : BusReq} {p : Option BusReq} (h : reqAlike (some q) p) :
    ∃ op, p = some ⟨q.addr7, op⟩ ∧ opAlike q.op op := by
  obtain h | ⟨a, o, o', hq, hp, hop⟩ := h
  · exact ⟨q.op, h.symm, .inl rfl⟩
  · cases hq
    exact ⟨o', hp, hop⟩

theorem reqAlike_none {p : Option BusReq} (h : reqAlike none p) : p = none := by
  obtain h | ⟨a, o, o', hq, -, -⟩ := h
  · exact h.symm
  · cases hq

section
variable {s s' : State} (h : AlikeButForReadBytes s s')
include h

theorem answered_alike {addr7 : BusAddr} {op op' : BusOp} (hop : opAlike op op') {a a' : BusRsp}
    (hstatus : a.status = a'.status) {rest rest' : List BusRsp}
    (hrest : rest.map BusRsp.status = rest'.map BusRsp.status) :
    AlikeButForReadBytes (s.answered ⟨addr7, op⟩ a rest) (s'.answered ⟨addr7, op'⟩ a' rest') := by
  obtain ⟨old, req, bus, events, dev, rfl, hreq, hevents, hbus, hdev⟩ := h.exists
  exact ⟨rfl, .inl rfl, .cons (.inr ⟨_, _, _, _, _, rfl, rfl, hop, hstatus⟩) hevents, hrest, hdev⟩

theorem awaitAnswer_alike {addr7 : BusAddr} {op op' : BusOp} (hop : opAlike op op') :
    ResultAlike (awaitAnswer ⟨addr7, op⟩ s) (awaitAnswer ⟨addr7, op'⟩ s') := by
  have ⟨_, _, _, hbus, _⟩ := h
  cases hb : s.bus with
  | nil =>
    have hb' : s'.bus = [] := by simpa [hb] using hbus
    simp only [awaitAnswer, hb, hb']
    exact .next h
  | cons a rest =>
    rw [hb, List.map_cons] at hbus
    obtain ⟨a', rest', hb', hstatus, hrest⟩ := List.map_eq_cons_iff.1 hbus.symm
    simp only [awaitAnswer, hb, hb', statusAllowed_alike hop, hstatus]
    split
    · exact answerEffect_alike (answered_alike h hop hstatus.symm hrest.symm) hop hstatus.symm
    · exact .refused _

theorem countDown_alike : ResultAlike (countDown s) (countDown s') := by
  have hwait := h
  obtain ⟨old, req, bus, events, dev, rfl, hreq, hevents, hbus, hdev⟩ := h.exists
  simp only [countDown]
  split
  · exact .next hwait
  · split
    · exact .next ⟨rfl, hreq, .cons (.inl rfl) hevents, hbus, hdev⟩
    · exact .next ⟨rfl, hreq, hevents, hbus, hdev⟩

theorem issue_alike : ResultAlike (issue s) (issue s') := by
  have hcount := countDown_alike h
  have hmicro : s'.micro = ({ s with old := s'.old } : State).micro := by
    rw [h.1]
    rfl
  simp only [issue]
  obtain hsame | ⟨v, v', hv, hv'⟩ := micro_withOld s s'.old
  · rw [hmicro, hsame]
    split
    · exact .fault _
    · exact .next (request_alike h (.inl rfl))
    · exact hcount
  · rw [hmicro, hv, hv']
    exact .next (request_alike h (.inr ⟨v, v', rfl, rfl⟩))

theorem sequencerStep_alike : ResultAlike (sequencerStep s) (sequencerStep s') := by
  have hseq : s'.seq = s.seq := by rw [h.1]
  have ⟨_, hreq, _⟩ := h
  simp only [sequencerStep, hseq]
  split
  · exact .next h
  · cases hr : s.req with
    | none =>
      rw [hr] at hreq
      simp only [reqAlike_none hreq]
      exact issue_alike h
    | some q =>
      rw [hr] at hreq
      obtain ⟨op, hr', hop⟩ := reqAlike_some hreq
      simp only [hr']
      exact awaitAnswer_alike h hop

/-! ### Accepting a command -/

theorem checked_alike {accepted accepted' : State} (ha : AlikeButForReadBytes accepted accepted') (isOpen : Bool)
    (op : BitVec 4) : ResultAlike (checked isOpen op s accepted) (checked isOpen op s' accepted') := by
  obtain ⟨old, req, bus, events, dev, rfl, hreq, hevents, hbus, hdev⟩ := h.exists
  simp only [checked]
  split
  · exact .next ha
  · exact .next ⟨rfl, hreq, hevents, hbus, hdev⟩
  · exact .fault _

theorem exec_alike (i : Instr) : ResultAlike (exec i s) (exec i s') := by
  have hchecked := fun {a a' : State} (ha : AlikeButForReadBytes a a') => checked_alike h ha
  obtain ⟨old, req, bus, events, dev, rfl, hreq, hevents, hbus, hdev⟩ := h.exists
  cases i with
  | openCmd addr7 => exact hchecked ⟨rfl, hreq, hevents, hbus, hdev⟩ true 1
  | closeCmd => exact hchecked ⟨rfl, hreq, hevents, hbus, hdev⟩ false 2
  | resetCmd => exact hchecked ⟨rfl, hreq, hevents, hbus, hdev⟩ false 3
  | setFreq hz =>
    refine hchecked ?_ false 4
    split <;> exact ⟨rfl, hreq, hevents, hbus, hdev⟩
  | setCh ch inv duty =>
    refine hchecked ?_ false 5
    split <;> exact ⟨rfl, hreq, hevents, hbus, hdev⟩
  | setAll inv duty => exact hchecked ⟨rfl, hreq, hevents, hbus, hdev⟩ false 6

theorem log_alike (e : Event) : AlikeButForReadBytes (s.log e) (s'.log e) := by
  obtain ⟨old, req, bus, events, dev, rfl, hreq, hevents, hbus, hdev⟩ := h.exists
  exact ⟨rfl, hreq, .cons (.inl rfl) hevents, hbus, hdev⟩

theorem setHost_alike (l : List HostAct) : AlikeButForReadBytes { s with host := l } { s' with host := l } := by
  obtain ⟨old, req, bus, events, dev, rfl, hreq, hevents, hbus, hdev⟩ := h.exists
  exact ⟨rfl, hreq, hevents, hbus, hdev⟩

theorem respond_alike (op : BitVec 4) (e : ErrKind) (r : BitVec 16) :
    AlikeButForReadBytes (s.respond op e r) (s'.respond op e r) := by
  obtain ⟨old, req, bus, events, dev, rfl, hreq, hevents, hbus, hdev⟩ := h.exists
  exact ⟨rfl, hreq, hevents, hbus, hdev⟩

theorem acceptWord_alike (w : Word) : ResultAlike (acceptWord w s) (acceptWord w s') := by
  have hlog := log_alike h (.cmd w)
  simp only [acceptWord]
  split
  · exact .next (respond_alike hlog ..)
  · exact exec_alike hlog _

/-! ### The machine's step -/

theorem deliver_alike (r : Word) : AlikeButForReadBytes (s.deliver r) (s'.deliver r) := by
  obtain ⟨old, req, bus, events, dev, rfl, hreq, hevents, hbus, hdev⟩ := h.exists
  exact ⟨rfl, hreq, .cons (.inl rfl) hevents, hbus, hdev⟩

theorem assertReset_alike : ResultAlike (assertReset s) (assertReset s') := by
  obtain ⟨old, req, bus, events, dev, rfl, hreq, hevents, hbus, hdev⟩ := h.exists
  simp only [assertReset]
  split
  · exact .next ⟨rfl, hreq, .cons (.inl rfl) hevents, hbus, hdev⟩
  · exact .refused _

/-- No status register shows the byte read (R32). -/
theorem statusRegister_alike (n : BitVec 3) : s'.statusRegister n = s.statusRegister n := by
  rw [h.1]
  rfl

theorem hostStep_alike (act : HostAct) (rest : List HostAct) :
    ResultAlike (hostStep act rest s) (hostStep act rest s') := by
  have hhost := setHost_alike h rest
  cases act with
  | readSR n =>
    simp only [hostStep, readStatus, statusRegister_alike hhost]
    exact .next (log_alike hhost _)
  | rst => exact assertReset_alike hhost
  | pass => exact sequencerStep_alike hhost
  | cmd w =>
    have hseq : s'.seq = s.seq := by rw [h.1]
    simp only [hostStep, hseq]
    split
    · exact acceptWord_alike hhost w
    · exact sequencerStep_alike h

theorem step_alike : ResultAlike (step s) (step s') := by
  have hhost : s'.host = s.host := by rw [h.1]
  have hrsp : s'.rsp = s.rsp := by rw [h.1]
  have hpending (r : Word) := ResultAlike.next (deliver_alike h r)
  simp only [step, machineStep, hhost, hrsp]
  split
  · split
    · exact hpending _
    · exact sequencerStep_alike h
  · exact hostStep_alike h _ _
  · split
    · exact hpending _
    · exact hostStep_alike h _ _

end

/-- Settles O33: the table entry, and each part of a step on alike states. -/
theorem readByteDecidesDataOnly : Obligations.ReadByteDecidesDataOnly := by
  refine ⟨micro_withOld, fun s s' halike => ?_⟩
  have hstep := step_alike halike
  refine ⟨fun t ht => ?_, fun f hf => ?_, fun x hx => ?_⟩
  · rw [ht] at hstep
    generalize step s' = r at hstep ⊢
    cases hstep with
    | next h => exact ⟨_, rfl, h⟩
  · rw [hf] at hstep
    generalize step s' = r at hstep ⊢
    cases hstep
    rfl
  · rw [hx] at hstep
    generalize step s' = r at hstep ⊢
    cases hstep
    rfl

end Sys2Proof.Safety
end
